-- ==== Sys2Proof/Word.lean ====
section
/-! DEFINITION. The machine's plain bit-vector types (00_scope.md R4, R7). -/

namespace Sys2Proof

/-- An 8-bit register, timer or memory byte. -/
abbrev Byte := BitVec 8

/-- A 16-bit value: an opcode, `I`, `pc`, a stack entry, the key vector. -/
abbrev Word := BitVec 16

/-- The number of a general register, the 4-bit fields `X` and `Y` (10_state.md R11: every value is legal). -/
abbrev Reg := BitVec 4

/-- Register 0xF, the flag register VF (10_state.md R12). -/
abbrev vf : Reg := 0xF#4

end Sys2Proof
end

