-- ==== Sys2Proof/Config.lean ====
section
/-! DEFINITION. What is fixed for the machine, and its free values (00_scope.md R4; 93_implementation_defined.md).
The parameter `FONT` is a table that stands in Sys2Proof/Machine/Font.lean. -/

namespace Sys2Proof

/-- PRESUMED (log 6, unsafe): the switch `SPRITE_MSB_LEFT` of 93_implementation_defined.md G2, assumed true: bit 7 of a sprite
byte is its leftmost pixel (45_display.md R154, from general knowledge). -/
def Config.spriteMsbLeft : Bool := true

/-- FREE VALUE (log 2, safe): the key vector the host presents at step number `n` where the state's `inputs` names none
(10_state.md R22).  No body: nothing can be proved about it. -/
opaque Config.freeKeys : Nat → Word

/-- FREE VALUE (log 2, safe): the random byte drawn at step number `n` where the state's `inputs` names none: "a free draw, a
fresh one at each step, under no law" (43_alu.md R131, 92_eei_decisions.md D17). -/
opaque Config.freeRnd : Nat → Byte

/-- The open parameter `STEP_CYCLES`, a function of the opcode (92_eei_decisions.md D27).  Read by no rule and by no definition
of this model (log 14, safe). -/
opaque Config.stepCycles : Word → Nat

end Sys2Proof
end

