-- ==== Sys2Proof/WellFormed.lean ====
section
/-! DEFINITION. What is legal: a 16-bit word, written from the list of illegal words of 30_encoding.md R60 and independently of the
decoder, and a program image (20_memory.md R45).  An `Instr` needs no check: every value its operands' types hold is legal
(30_encoding.md R53). -/

namespace Sys2Proof

/-- The function nibbles of group 8 that name no operation (30_encoding.md R56). -/
def illegalGroup8 : List Nat := [0x8, 0x9, 0xA, 0xB, 0xC, 0xD, 0xF]

/-- The low bytes of group F that name an instruction (30_encoding.md R58). -/
def legalGroupF : List Nat := [0x07, 0x0A, 0x15, 0x18, 0x1E, 0x29, 0x33, 0x55, 0x65]

/-- The word is not on the list of 30_encoding.md R60, one check per group that has illegal words. -/
def wordLegal (w : Word) : Bool :=
  let g := w.toNat / 0x1000
  let nn := w.toNat % 0x100
  let n := w.toNat % 0x10
  (g != 0x0 || w == 0x00E0 || w == 0x00EE) &&
  (g != 0x5 || n == 0) &&
  (g != 0x8 || !illegalGroup8.contains n) &&
  (g != 0x9 || n == 0) &&
  (g != 0xE || nn == 0x9E || nn == 0xA1) &&
  (g != 0xF || legalGroupF.contains nn)

/-- "Invariant: ROM length ≤ 0xFFF − 0x200 + 1 = 3584 bytes" (20_memory.md R45). -/
def programFits (bytes : List Byte) : Bool := bytes.length ≤ 0xFFF - 0x200 + 1

end Sys2Proof
end

