-- ==== Sys2Proof/Decode.lean ====
section
/-! DEFINITION. The two-level decoder (30_encoding.md R51 to R66), the encoder written from the same formats, and the opcode table's
match and mask pairs. -/

namespace Sys2Proof

/-- An illegal word, named by the group it falls in (30_encoding.md R60).  The machine answers each with `UnknownOpcode`. -/
inductive Illegal where
  /-- `0NNN` other than 00E0 and 00EE, the native call among them (R55, R61) -/
  | group0
  /-- `5XYN` with `N ≠ 0` (R59) -/
  | group5
  /-- `8XYN` with `N` in 8, 9, A, B, C, D, F (R56) -/
  | group8
  /-- `9XYN` with `N ≠ 0` (R59) -/
  | group9
  /-- `EXNN` with `NN` neither 9E nor A1 (R57) -/
  | groupE
  /-- `FXNN` with an `NN` that names no instruction (R58) -/
  | groupF
  deriving DecidableEq, Repr

/-! ## Byte order and fields -/

/-- The opcode of two consecutive bytes, the lower address first: "compose big-endian into a 16-bit opcode" (20_memory.md R33). -/
def bigEndian (lower higher : Byte) : Word := BitVec.ofNat 16 (lower.toNat * 0x100 + higher.toNat)

/-- The byte at the lower address, `op[15:8]` (20_memory.md R33). -/
def firstByte (w : Word) : Byte := w.extractLsb' 8 8

/-- The byte at the higher address, `op[7:0]` (20_memory.md R33). -/
def secondByte (w : Word) : Byte := w.extractLsb' 0 8

/-- `G = op[15:12]` (30_encoding.md R51). -/
def fieldG (w : Word) : BitVec 4 := w.extractLsb' 12 4

/-- `X = op[11:8]` (30_encoding.md R51). -/
def fieldX (w : Word) : Reg := w.extractLsb' 8 4

/-- `Y = op[7:4]` (30_encoding.md R51). -/
def fieldY (w : Word) : Reg := w.extractLsb' 4 4

/-- `N = op[3:0]` (30_encoding.md R51). -/
def fieldN (w : Word) : BitVec 4 := w.extractLsb' 0 4

/-- `NN = op[7:0]` (30_encoding.md R51). -/
def fieldNN (w : Word) : Byte := w.extractLsb' 0 8

/-- `NNN = op[11:0]` (30_encoding.md R51). -/
def fieldNNN (w : Word) : BitVec 12 := w.extractLsb' 0 12

/-! ## The decoder -/

/-- Group 0, selected by the whole word (30_encoding.md R55). -/
def decodeGroup0 (w : Word) : Except Illegal Instr :=
  if w = 0x00E0#16 then .ok .cls else if w = 0x00EE#16 then .ok .ret else .error .group0

/-- Group 8, selected by `N` (30_encoding.md R56). -/
def decodeGroup8 (w : Word) : Except Illegal Instr :=
  match (fieldN w).toNat with
  | 0x0 => .ok (.ldVxVy (fieldX w) (fieldY w))
  | 0x1 => .ok (.orVxVy (fieldX w) (fieldY w))
  | 0x2 => .ok (.andVxVy (fieldX w) (fieldY w))
  | 0x3 => .ok (.xorVxVy (fieldX w) (fieldY w))
  | 0x4 => .ok (.addVxVy (fieldX w) (fieldY w))
  | 0x5 => .ok (.subVxVy (fieldX w) (fieldY w))
  | 0x6 => .ok (.shrVx (fieldX w) (fieldY w))
  | 0x7 => .ok (.subnVxVy (fieldX w) (fieldY w))
  | 0xE => .ok (.shlVx (fieldX w) (fieldY w))
  | _ => .error .group8

/-- Group E, selected by `NN` (30_encoding.md R57). -/
def decodeGroupE (w : Word) : Except Illegal Instr :=
  match (fieldNN w).toNat with
  | 0x9E => .ok (.skpVx (fieldX w))
  | 0xA1 => .ok (.sknpVx (fieldX w))
  | _ => .error .groupE

/-- Group F, selected by `NN` (30_encoding.md R58). -/
def decodeGroupF (w : Word) : Except Illegal Instr :=
  match (fieldNN w).toNat with
  | 0x07 => .ok (.ldVxDt (fieldX w))
  | 0x0A => .ok (.ldVxK (fieldX w))
  | 0x15 => .ok (.ldDtVx (fieldX w))
  | 0x18 => .ok (.ldStVx (fieldX w))
  | 0x1E => .ok (.addIVx (fieldX w))
  | 0x29 => .ok (.ldFVx (fieldX w))
  | 0x33 => .ok (.ldBVx (fieldX w))
  | 0x55 => .ok (.ldMemVx (fieldX w))
  | 0x65 => .ok (.ldVxMem (fieldX w))
  | _ => .error .groupF

/-- The decoder, total on 16-bit words: an instruction with its fields, or the verdict illegal (30_encoding.md R54, R66). -/
def decode (w : Word) : Except Illegal Instr :=
  match (fieldG w).toNat with
  | 0x0 => decodeGroup0 w
  | 0x1 => .ok (.jp (fieldNNN w))
  | 0x2 => .ok (.call (fieldNNN w))
  | 0x3 => .ok (.seVxNn (fieldX w) (fieldNN w))
  | 0x4 => .ok (.sneVxNn (fieldX w) (fieldNN w))
  | 0x5 => if fieldN w = 0#4 then .ok (.seVxVy (fieldX w) (fieldY w)) else .error .group5
  | 0x6 => .ok (.ldVxNn (fieldX w) (fieldNN w))
  | 0x7 => .ok (.addVxNn (fieldX w) (fieldNN w))
  | 0x8 => decodeGroup8 w
  | 0x9 => if fieldN w = 0#4 then .ok (.sneVxVy (fieldX w) (fieldY w)) else .error .group9
  | 0xA => .ok (.ldINnn (fieldNNN w))
  | 0xB => .ok (.jpV0Nnn (fieldNNN w))
  | 0xC => .ok (.rndVxNn (fieldX w) (fieldNN w))
  | 0xD => .ok (.drwVxVyN (fieldX w) (fieldY w) (fieldN w))
  | 0xE => decodeGroupE w
  | _ => decodeGroupF w

/-- The decoder on the two bytes of an instruction as memory holds them, the lower address first (20_memory.md R33, 40_step_cycle.md R71). -/
def decodeBytes (lower higher : Byte) : Except Illegal Instr := decode (bigEndian lower higher)

/-- The two bytes, lower address first, of the instruction whose bits spec/opcode_table.json numbers as `w`, bits at and above
`nbits` zero. -/
def tableBytes (nbits w : Nat) : Byte × Byte :=
  let op : Word := BitVec.ofNat 16 (w % 2 ^ nbits)
  (firstByte op, secondByte op)

/-- What the decoder reads from an instruction whose bits are `w`, numbered as spec/opcode_table.json numbers them. -/
def decodeTableWord (nbits w : Nat) : Option Instr :=
  match decodeBytes (tableBytes nbits w).1 (tableBytes nbits w).2 with
  | .ok i => some i
  | .error _ => none

/-! ## The encoder, from the formats of 30_encoding.md R52 -/

/-- Format A: `G`, then the 12-bit `NNN`. -/
def wordA (g : Nat) (nnn : BitVec 12) : Word := BitVec.ofNat 16 (g * 0x1000 + nnn.toNat)

/-- Format XI: `G`, `X`, then the 8-bit `NN`.  Format XF is the same with a fixed low byte. -/
def wordXI (g : Nat) (x : Reg) (nn : Byte) : Word := BitVec.ofNat 16 (g * 0x1000 + x.toNat * 0x100 + nn.toNat)

/-- Format XYN: `G`, `X`, `Y`, `N`.  Format XY is the same with a fixed function nibble. -/
def wordXYN (g : Nat) (x y : Reg) (n : BitVec 4) : Word :=
  BitVec.ofNat 16 (g * 0x1000 + x.toNat * 0x100 + y.toNat * 0x10 + n.toNat)

/-- The word of an instruction (30_encoding.md R52 and section 4). -/
def encode : Instr → Word
  | .cls => 0x00E0#16
  | .ret => 0x00EE#16
  | .jp nnn => wordA 0x1 nnn
  | .call nnn => wordA 0x2 nnn
  | .seVxNn x nn => wordXI 0x3 x nn
  | .sneVxNn x nn => wordXI 0x4 x nn
  | .seVxVy x y => wordXYN 0x5 x y 0x0#4
  | .ldVxNn x nn => wordXI 0x6 x nn
  | .addVxNn x nn => wordXI 0x7 x nn
  | .ldVxVy x y => wordXYN 0x8 x y 0x0#4
  | .orVxVy x y => wordXYN 0x8 x y 0x1#4
  | .andVxVy x y => wordXYN 0x8 x y 0x2#4
  | .xorVxVy x y => wordXYN 0x8 x y 0x3#4
  | .addVxVy x y => wordXYN 0x8 x y 0x4#4
  | .subVxVy x y => wordXYN 0x8 x y 0x5#4
  | .shrVx x y => wordXYN 0x8 x y 0x6#4
  | .subnVxVy x y => wordXYN 0x8 x y 0x7#4
  | .shlVx x y => wordXYN 0x8 x y 0xE#4
  | .sneVxVy x y => wordXYN 0x9 x y 0x0#4
  | .ldINnn nnn => wordA 0xA nnn
  | .jpV0Nnn nnn => wordA 0xB nnn
  | .rndVxNn x nn => wordXI 0xC x nn
  | .drwVxVyN x y n => wordXYN 0xD x y n
  | .skpVx x => wordXI 0xE x 0x9E#8
  | .sknpVx x => wordXI 0xE x 0xA1#8
  | .ldVxDt x => wordXI 0xF x 0x07#8
  | .ldVxK x => wordXI 0xF x 0x0A#8
  | .ldDtVx x => wordXI 0xF x 0x15#8
  | .ldStVx x => wordXI 0xF x 0x18#8
  | .addIVx x => wordXI 0xF x 0x1E#8
  | .ldFVx x => wordXI 0xF x 0x29#8
  | .ldBVx x => wordXI 0xF x 0x33#8
  | .ldMemVx x => wordXI 0xF x 0x55#8
  | .ldVxMem x => wordXI 0xF x 0x65#8

/-- The bytes of an instruction as memory holds them, the lower address first (20_memory.md R33). -/
def encodeBytes (i : Instr) : List Byte := [firstByte (encode i), secondByte (encode i)]

/-! ## The opcode table -/

/-- One row of the table: "a word `op` selects the row iff `(op & mask) == match`" (30_encoding.md section 4); `pat` is the `match`. -/
structure TableRow where
  pat : Word
  mask : Word
  deriving DecidableEq, Repr

/-- The word selects the row (30_encoding.md R66). -/
def TableRow.matchesWord (r : TableRow) (w : Word) : Bool := w &&& r.mask == r.pat

/-- The row of the opcode table an instruction belongs to (30_encoding.md section 4). -/
def Instr.row : Instr → TableRow
  | .cls => ⟨0x00E0#16, 0xFFFF#16⟩
  | .ret => ⟨0x00EE#16, 0xFFFF#16⟩
  | .jp _ => ⟨0x1000#16, 0xF000#16⟩
  | .call _ => ⟨0x2000#16, 0xF000#16⟩
  | .seVxNn _ _ => ⟨0x3000#16, 0xF000#16⟩
  | .sneVxNn _ _ => ⟨0x4000#16, 0xF000#16⟩
  | .seVxVy _ _ => ⟨0x5000#16, 0xF00F#16⟩
  | .ldVxNn _ _ => ⟨0x6000#16, 0xF000#16⟩
  | .addVxNn _ _ => ⟨0x7000#16, 0xF000#16⟩
  | .ldVxVy _ _ => ⟨0x8000#16, 0xF00F#16⟩
  | .orVxVy _ _ => ⟨0x8001#16, 0xF00F#16⟩
  | .andVxVy _ _ => ⟨0x8002#16, 0xF00F#16⟩
  | .xorVxVy _ _ => ⟨0x8003#16, 0xF00F#16⟩
  | .addVxVy _ _ => ⟨0x8004#16, 0xF00F#16⟩
  | .subVxVy _ _ => ⟨0x8005#16, 0xF00F#16⟩
  | .shrVx _ _ => ⟨0x8006#16, 0xF00F#16⟩
  | .subnVxVy _ _ => ⟨0x8007#16, 0xF00F#16⟩
  | .shlVx _ _ => ⟨0x800E#16, 0xF00F#16⟩
  | .sneVxVy _ _ => ⟨0x9000#16, 0xF00F#16⟩
  | .ldINnn _ => ⟨0xA000#16, 0xF000#16⟩
  | .jpV0Nnn _ => ⟨0xB000#16, 0xF000#16⟩
  | .rndVxNn _ _ => ⟨0xC000#16, 0xF000#16⟩
  | .drwVxVyN _ _ _ => ⟨0xD000#16, 0xF000#16⟩
  | .skpVx _ => ⟨0xE09E#16, 0xF0FF#16⟩
  | .sknpVx _ => ⟨0xE0A1#16, 0xF0FF#16⟩
  | .ldVxDt _ => ⟨0xF007#16, 0xF0FF#16⟩
  | .ldVxK _ => ⟨0xF00A#16, 0xF0FF#16⟩
  | .ldDtVx _ => ⟨0xF015#16, 0xF0FF#16⟩
  | .ldStVx _ => ⟨0xF018#16, 0xF0FF#16⟩
  | .addIVx _ => ⟨0xF01E#16, 0xF0FF#16⟩
  | .ldFVx _ => ⟨0xF029#16, 0xF0FF#16⟩
  | .ldBVx _ => ⟨0xF033#16, 0xF0FF#16⟩
  | .ldMemVx _ => ⟨0xF055#16, 0xF0FF#16⟩
  | .ldVxMem _ => ⟨0xF065#16, 0xF0FF#16⟩

/-- The 34 rows in the table's order. -/
def opcodeTable : List TableRow :=
  [⟨0x00E0#16, 0xFFFF#16⟩, ⟨0x00EE#16, 0xFFFF#16⟩, ⟨0x1000#16, 0xF000#16⟩, ⟨0x2000#16, 0xF000#16⟩, ⟨0x3000#16, 0xF000#16⟩, ⟨0x4000#16, 0xF000#16⟩,
   ⟨0x5000#16, 0xF00F#16⟩, ⟨0x6000#16, 0xF000#16⟩, ⟨0x7000#16, 0xF000#16⟩] ++
  [⟨0x8000#16, 0xF00F#16⟩, ⟨0x8001#16, 0xF00F#16⟩, ⟨0x8002#16, 0xF00F#16⟩, ⟨0x8003#16, 0xF00F#16⟩, ⟨0x8004#16, 0xF00F#16⟩, ⟨0x8005#16, 0xF00F#16⟩,
   ⟨0x8006#16, 0xF00F#16⟩, ⟨0x8007#16, 0xF00F#16⟩, ⟨0x800E#16, 0xF00F#16⟩] ++
  [⟨0x9000#16, 0xF00F#16⟩, ⟨0xA000#16, 0xF000#16⟩, ⟨0xB000#16, 0xF000#16⟩, ⟨0xC000#16, 0xF000#16⟩, ⟨0xD000#16, 0xF000#16⟩, ⟨0xE09E#16, 0xF0FF#16⟩,
   ⟨0xE0A1#16, 0xF0FF#16⟩] ++
  [⟨0xF007#16, 0xF0FF#16⟩, ⟨0xF00A#16, 0xF0FF#16⟩, ⟨0xF015#16, 0xF0FF#16⟩, ⟨0xF018#16, 0xF0FF#16⟩, ⟨0xF01E#16, 0xF0FF#16⟩, ⟨0xF029#16, 0xF0FF#16⟩,
   ⟨0xF033#16, 0xF0FF#16⟩, ⟨0xF055#16, 0xF0FF#16⟩, ⟨0xF065#16, 0xF0FF#16⟩]

end Sys2Proof
end

