-- ==== Sys2Proof/Machine/State.lean ====
section
/-! DEFINITION. The state as plain data: the spec's eleven parts (10_state.md R10), the inputs a step samples and the outputs it
produces (R22, R24), and three fields of the model's own for the host's side.  State.reset is 10_state.md R27. -/

namespace Sys2Proof.Machine

/-- The statuses a step can return (60_exceptions.md R170). -/
inductive Status where
  /-- an instruction completed -/
  | running
  /-- FX0A with no key pressed: a suspension, not an error (46_timer_key.md R161) -/
  | waitingForKey
  /-- the fetched word is illegal (60_exceptions.md R171) -/
  | unknownOpcode
  /-- 2NNN with `sp = 16` (60_exceptions.md R172) -/
  | stackOverflow
  /-- 00EE with `sp = 0` (60_exceptions.md R173) -/
  | stackUnderflow
  /-- FX29 with `V[X] > 0x0F` (60_exceptions.md R174) -/
  | invalidFontIndex
  deriving DecidableEq, Repr

/-- Where the host stands in the boot sequence of 70_reset_and_hazards.md R191: the model's own bookkeeping (log 8). -/
inductive BootPhase where
  /-- reset, no program loaded, no step taken -/
  | fresh
  /-- a program was loaded, no step taken -/
  | loaded
  /-- a step was taken -/
  | running
  deriving DecidableEq, Repr

/-- The two inputs the host presents to one step (10_state.md R22). -/
structure StepInput where
  /-- `pressed_keys[15:0]`, bit `k` = key `k` pressed -/
  pressedKeys : Word
  /-- `rnd[7:0]` -/
  rnd : Byte
  deriving DecidableEq, Repr

/-- Why a transaction stops the run.  No step ever answers one: an error of a step is a next state with that status (log 4). -/
inductive Fault where
  /-- `RomTooLarge`: raised by `State.loadProgram` only, for more than 3584 bytes; "never raised mid-execution"
  (60_exceptions.md R175).  Safe: the spec's own failure, after which "the run does not start" (70_reset_and_hazards.md R191). -/
  | romTooLarge
  deriving DecidableEq, Repr

/-- What the model gives no move. -/
inductive Refusal where
  /-- An instruction without a meaning.  Raised by nobody: every instruction has its meaning.  Safe. -/
  | notModelled (mnemonic : String)
  /-- A second `load_program`, or one after the first step.  Raised by `State.loadProgram` only.  Safe: "anything else has no move in
  a model" (92_eei_decisions.md D20). -/
  | loadOutOfOrder
  deriving DecidableEq, Repr

/-- Memory: (address, byte) pairs, addresses strictly rising, no entry equal to what an unlisted address reads as
(`Memory.wf` in Sys2Proof/Machine/Memory.lean). -/
abbrev Memory := List Host.Cell

/-- The frame buffer, `gfx[x][y]`: 64 columns of 32 one-bit pixels (10_state.md R19). -/
abbrev Gfx := Vector (Vector Bool 32) 64

structure State where
  /-- main memory, 4096 bytes (20_memory.md R30) -/
  mem : Memory
  /-- the general registers `V[0]` to `V[15]`; `V[0xF]` is the flag register VF (10_state.md R11, R12) -/
  v : Vector Byte 16
  /-- the index register `I` (10_state.md R13) -/
  i : Word
  /-- the program counter (10_state.md R14) -/
  pc : Word
  /-- the return stack (10_state.md R15) -/
  stack : Vector Word 16
  /-- the stack pointer, 5 bits, 0 to 16 in every reachable state (10_state.md R16, R17) -/
  sp : BitVec 5
  /-- `delay_timer` (10_state.md R18) -/
  dt : Byte
  /-- `sound_timer` (10_state.md R18) -/
  st : Byte
  /-- the frame buffer (10_state.md R19) -/
  gfx : Gfx
  /-- `draw_flag` (10_state.md R20) -/
  drawFlag : Bool
  /-- the latched key vector (10_state.md R21) -/
  key : Word
  /-- INPUT: the random byte of this step, sampled at its start and held (10_state.md R22, log 1) -/
  rnd : Byte
  /-- OUTPUT: the status the last step returned (10_state.md R24, log 3) -/
  status : Status
  /-- OUTPUT: `sound_triggered` of the last step (46_timer_key.md R165, log 3) -/
  soundTriggered : Bool
  /-- MODEL: the inputs the host has lined up for the coming steps, oldest first (00_scope.md R6, log 1) -/
  inputs : List StepInput
  /-- MODEL: the number of steps begun, the index of the free inputs (log 2) -/
  steps : Nat
  /-- MODEL: the place in the boot sequence (log 8) -/
  boot : BootPhase
  deriving DecidableEq, Repr

/-- The machine right after reset (10_state.md R27, 70_reset_and_hazards.md R190).  Memory lists nothing: an unlisted address reads as
its reset contents, the font and zeros.  The last six fields are no state of the block: log 1, 2, 3, 8 name their values. -/
def State.reset : State where
  mem := []
  v := Vector.replicate 16 0x00#8
  i := 0x0000#16
  pc := 0x0200#16
  stack := Vector.replicate 16 0x0000#16
  sp := 0#5
  dt := 0x00#8
  st := 0x00#8
  gfx := Vector.replicate 64 (Vector.replicate 32 false)
  drawFlag := false
  key := 0x0000#16
  rnd := 0x00#8
  status := .running
  soundTriggered := false
  inputs := []
  steps := 0
  boot := .fresh

end Sys2Proof.Machine
end

