-- ==== Sys2Proof/Machine/Flags.lean ====
section
/-! DEFINITION. The flag computations of the seven instructions that write VF (10_state.md R12, 43_alu.md R133).  The collision flag
comes from the drawing itself (Sys2Proof/Machine/Display.lean). -/

namespace Sys2Proof.Machine

/-- VF holds exactly 0x00 or 0x01 after a flag-defining instruction (10_state.md R12). -/
def flagByte (f : Bool) : Byte := if f then 0x01#8 else 0x00#8

/-- 8XY4: "1 iff sum > 255" (43_alu.md R126). -/
def carryOut (a b : Byte) : Bool := decide (a.toNat + b.toNat > 255)

/-- 8XY5 and 8XY7: 1 "iff no borrow", minuend >= subtrahend (43_alu.md R127, R129). -/
def noBorrow (minuend subtrahend : Byte) : Bool := decide (minuend.toNat ≥ subtrahend.toNat)

/-- 8XY6: "bit 0 before shift" (43_alu.md R128). -/
def shiftedOutLow (a : Byte) : Bool := a.getLsbD 0

/-- 8XYE: "bit 7 before shift" (43_alu.md R130). -/
def shiftedOutHigh (a : Byte) : Bool := a.getLsbD 7

/-- FX1E: the unwrapped sum is beyond 0xFFF (44_index_memory.md R141, 92_eei_decisions.md D15). -/
def beyondAddressRange (i : Word) (b : Byte) : Bool := decide (i.toNat + b.toNat > 0xFFF)

end Sys2Proof.Machine
end

