-- ==== Sys2Proof/Machine/Memory.lean ====
section
/-! DEFINITION. Reading and writing the list of cells that holds main memory.  Addresses here are already reduced modulo 4096
(20_memory.md R31; the reduction is in Sys2Proof/Machine/Ops.lean). -/

namespace Sys2Proof.Machine

/-- The number of bytes of main memory (00_scope.md R4). -/
def memorySize : Nat := 4096

/-- The canonical form: addresses strictly rising, each inside memory, and no entry equal to what its address reads as unlisted. -/
abbrev Memory.wf (m : Memory) : Prop :=
  m.Pairwise (fun c d => c.1 < d.1) ∧ ∀ c ∈ m, c.1 < memorySize ∧ c.2 ≠ unlistedByte c.1

/-- The byte at an address (20_memory.md R36: "a read returns the last value written"). -/
def Memory.read : Memory → Nat → Byte
  | [], a => unlistedByte a
  | c :: m, a => if a = c.1 then c.2 else Memory.read m a

/-- Removes the address from the list. -/
def Memory.erase (m : Memory) (a : Nat) : Memory := m.filter (fun c => c.1 != a)

/-- Puts an entry before the first entry of a higher address. -/
def Memory.insert (a : Nat) (b : Byte) : Memory → Memory
  | [] => [(a, b)]
  | c :: m => if a < c.1 then (a, b) :: c :: m else c :: Memory.insert a b m

/-- Writes a byte and keeps the canonical form: writing what the address reads as unlisted removes its entry. -/
def Memory.write (m : Memory) (a : Nat) (b : Byte) : Memory :=
  if b = unlistedByte a then m.erase a else (m.erase a).insert a b

/-- Writes bytes at `a`, `a + 1`, ..., each address modulo 4096, in increasing order (20_memory.md R31, R32). -/
def Memory.writeBytes (m : Memory) (a : Nat) : List Byte → Memory
  | [] => m
  | b :: bs => Memory.writeBytes (m.write (a % memorySize) b) (a + 1) bs

end Sys2Proof.Machine
end

