-- ==== Sys2Proof/Machine/Operands.lean ====
section
/-! DEFINITION. How operands become values: widenings, the key an operand selects, the decimal digits, a register's place in its file
(30_encoding.md R53, 42_skip.md R114, 44_index_memory.md R143, 46_timer_key.md R161). -/

namespace Sys2Proof.Machine

/-- `zext_16(NNN)` (30_encoding.md R53). -/
def zextNnn (nnn : BitVec 12) : Word := nnn.setWidth 16

/-- `zext_16` of a byte (44_index_memory.md R141, R142). -/
def zextByte (b : Byte) : Word := b.setWidth 16

/-- `V[X][3:0]`: the low nibble selects one of 16 keys (42_skip.md R114, 92_eei_decisions.md D9). -/
def keyIndex (b : Byte) : BitVec 4 := b.extractLsb' 0 4

/-- `key[k] == 1` (10_state.md R21). -/
def keyPressed (key : Word) (k : Nat) : Bool := key.getLsbD k

/-- The smallest pressed key, if any key is pressed (46_timer_key.md R161, 92_eei_decisions.md D10). -/
def lowestKey (key : Word) : Option Nat := (List.range 16).find? (fun k => keyPressed key k)

/-- Hundreds, tens and ones of a byte, most significant first, one byte each (44_index_memory.md R143). -/
def decimalDigits (b : Byte) : List Byte :=
  [BitVec.ofNat 8 (b.toNat / 100), BitVec.ofNat 8 (b.toNat / 10 % 10), BitVec.ofNat 8 (b.toNat % 10)]

/-- The stack entry that `sp` indexes: its low four bits, the index lines of a 16-entry array (10_state.md R15, R16).  They are `sp`
itself for every `sp` below 16; log 10 says what holds for 17 to 31, which no run reaches. -/
def stackIndex (sp : BitVec 5) : Fin 16 := ⟨sp.toNat % 16, Nat.mod_lt _ (by decide)⟩

end Sys2Proof.Machine
end

