-- ==== Sys2Proof/Machine/Ops.lean ====
section
/-! DEFINITION. The named operations over the state that the meanings are written with: registers, memory, stack, how an instruction
ends (completes, raises, waits), and the parts of the step around an instruction (40_step_cycle.md R70). -/

namespace Sys2Proof.Machine

/-- What a transaction answers. -/
abbrev Outcome := Host.Outcome State Fault Refusal

/-! ## Registers -/

/-- `V[x]` (00_scope.md R7). -/
def State.reg (s : State) (x : Reg) : Byte := s.v.get x.toFin

/-- `V[x] <- b` (00_scope.md R7). -/
def State.setReg (s : State) (x : Reg) (b : Byte) : State := { s with v := s.v.set x.toNat b x.isLt }

/-- `V[0xF] <- 1 if f else 0` (10_state.md R12). -/
def State.setFlag (s : State) (f : Bool) : State := s.setReg vf (flagByte f)

/-- `I <- w`. -/
def State.setI (s : State) (w : Word) : State := { s with i := w }

/-- `DT <- b`. -/
def State.setDt (s : State) (b : Byte) : State := { s with dt := b }

/-- `ST <- b`. -/
def State.setSt (s : State) (b : Byte) : State := { s with st := b }

/-- `V[0]` to `V[n - 1]`, lowest first (44_index_memory.md R144). -/
def State.regsBelow (s : State) (n : Nat) : List Byte := (List.range n).map (fun k => s.reg (BitVec.ofNat 4 k))

/-! ## Memory -/

/-- `MemRead(a, 1)`, for any non-negative integer `a` (20_memory.md R31). -/
def State.memRead (s : State) (a : Nat) : Byte := s.mem.read (a % memorySize)

/-- `MemRead(a + k, 1)` for `k = 0, ..., n - 1`. -/
def State.memReads (s : State) (a n : Nat) : List Byte := (List.range n).map (fun k => s.memRead (a + k))

/-- `MemWrite(a + k, 1, bs[k])` for `k = 0, 1, ...`, in increasing order (20_memory.md R31, R32). -/
def State.storeBytes (s : State) (a : Nat) (bs : List Byte) : State := { s with mem := s.mem.writeBytes a bs }

/-- `V[k] <- MemRead(a + k, 1)` for every `k < n`.  The order does not matter: "the reads do not depend on the registers written"
(44_index_memory.md R145). -/
def State.loadRegs (s : State) (a n : Nat) : State :=
  { s with v := Vector.ofFn (fun k : Fin 16 => if k.val < n then s.memRead (a + k.val) else s.v.get k) }

/-- `MemRead(pc, 2)`: the opcode, big-endian, both bytes at addresses modulo 4096 (40_step_cycle.md R71). -/
def State.fetchWord (s : State) : Word := bigEndian (s.memRead s.pc.toNat) (s.memRead (s.pc.toNat + 1))

/-- The state with the two bytes of an instruction, in spec/opcode_table.json's numbering, where the next fetch reads them. -/
def State.placeWord (s : State) (nbits w : Nat) : State :=
  s.storeBytes s.pc.toNat [(tableBytes nbits w).1, (tableBytes nbits w).2]

/-! ## Stack -/

/-- `stack[sp] <- pc`, then `sp <- sp + 1` (41_flow.md R102). -/
def State.pushPc (s : State) : State :=
  { s with stack := s.stack.set (stackIndex s.sp).val s.pc (stackIndex s.sp).isLt, sp := s.sp + 1 }

/-- `sp <- sp - 1` (41_flow.md R100); the popped entry keeps its value. -/
def State.popSp (s : State) : State := { s with sp := s.sp - 1 }

/-- `stack[sp]`. -/
def State.stackTop (s : State) : Word := s.stack.get (stackIndex s.sp)

/-! ## Frame buffer -/

/-- `gfx[x][y]`: column `x`, row `y` (10_state.md R19). -/
def Gfx.pixel (g : Gfx) (x : Fin 64) (y : Fin 32) : Bool := (g.get x).get y

/-- The pixel of the state's frame buffer, what the host's read port shows (10_state.md R19, R24). -/
def State.pixel (s : State) (x : Fin 64) (y : Fin 32) : Bool := s.gfx.pixel x y

/-! ## How an instruction ends -/

/-- The instruction completes: it writes `pc`, once, and the step returns `Running` (10_state.md R14, 40_step_cycle.md R73). -/
def State.completed (s : State) (target : Word) : State := { s with pc := target, status := .running }

/-- `pc <- (pc + 2) mod 65536` (10_state.md R14). -/
def State.advanced (s : State) : State := s.completed (s.pc + 2)

/-- A skip: `pc + 4` if the condition holds, `pc + 2` if it does not, modulo 65536; the skipped word is not looked at (42_skip.md R116). -/
def State.skippedIf (s : State) (c : Bool) : State := s.completed (if c then s.pc + 4 else s.pc + 2)

/-- TAKING AN ERROR (60_exceptions.md R178): no handler, no vector, no saved state; nothing is written, `pc` stays on the instruction
and the step returns the error as its status.  There is no return from an error (R179).  The step has latched `key` and cleared
`draw_flag` before, and does not tick after (40_step_cycle.md R74). -/
def State.raised (s : State) (e : Status) : State := { s with status := e }

/-- The instruction waits: nothing is written and the step returns `WaitingForKey` (46_timer_key.md R161). -/
def State.waiting (s : State) : State := { s with status := .waitingForKey }

/-! ## The step around the instruction (40_step_cycle.md R70) -/

/-- The inputs of the next step: the first the host has lined up, or free values (10_state.md R22, log 1, log 2). -/
def State.nextInput (s : State) : StepInput :=
  match s.inputs with
  | inp :: _ => inp
  | [] => ⟨Config.freeKeys s.steps, Config.freeRnd s.steps⟩

/-- Steps 1 and 2 of R70: latch the inputs, clear `draw_flag`; `sound_triggered` is 0 unless the tick sets it (46_timer_key.md R165). -/
def State.begun (s : State) : State :=
  { s with
    key := s.nextInput.pressedKeys
    rnd := s.nextInput.rnd
    drawFlag := false
    soundTriggered := false
    inputs := s.inputs.tail
    steps := s.steps + 1
    boot := .running }

/-- A timer counts down by 1 and stays at 0 (46_timer_key.md R164). -/
def countDown (b : Byte) : Byte := if b = 0x00#8 then 0x00#8 else b - 1

/-- The timer tick: both timers count down; `sound_triggered` iff ST was exactly 1 (46_timer_key.md R164, R165). -/
def State.ticked (s : State) : State :=
  { s with dt := countDown s.dt, st := countDown s.st, soundTriggered := s.st == 0x01#8 }

/-- Step 6 of R70: the tick runs in exactly the steps that return `Running`. -/
def State.ended (s : State) : State := if s.status = .running then s.ticked else s

/-! ## Codes -/

/-- The 3-bit `status` output (60_exceptions.md R170, 92_eei_decisions.md D13). -/
def Status.code : Status → BitVec 3
  | .running => 0
  | .waitingForKey => 1
  | .unknownOpcode => 2
  | .stackOverflow => 3
  | .stackUnderflow => 4
  | .invalidFontIndex => 5

/-- The load port's code (60_exceptions.md R170). -/
def Fault.code : Fault → BitVec 3
  | .romTooLarge => 6

end Sys2Proof.Machine
end

