-- ==== Sys2Proof/Machine/Alu.lean ====
section
/-! DEFINITION. Register loads and arithmetic: 6XNN, 7XNN, 8XY0 to 8XY7, 8XYE, CXNN (43_alu.md).  Each flag-defining meaning reads its
operands from the state the instruction began in, writes the result, and writes the flag last (43_alu.md R132). -/

namespace Sys2Proof.Machine

/-- 6XNN `LD Vx, nn` (43_alu.md R120). -/
def execLdVxNn (x : Reg) (nn : Byte) (s : State) : Outcome := .next (s.setReg x nn).advanced

/-- 7XNN `ADD Vx, nn`: no flag effect (43_alu.md R121). -/
def execAddVxNn (x : Reg) (nn : Byte) (s : State) : Outcome := .next (s.setReg x (s.reg x + nn)).advanced

/-- 8XY0 `LD Vx, Vy` (43_alu.md R122). -/
def execLdVxVy (x y : Reg) (s : State) : Outcome := .next (s.setReg x (s.reg y)).advanced

/-- 8XY1 `OR Vx, Vy`: VF untouched (43_alu.md R123). -/
def execOrVxVy (x y : Reg) (s : State) : Outcome := .next (s.setReg x (s.reg x ||| s.reg y)).advanced

/-- 8XY2 `AND Vx, Vy`: VF untouched (43_alu.md R124). -/
def execAndVxVy (x y : Reg) (s : State) : Outcome := .next (s.setReg x (s.reg x &&& s.reg y)).advanced

/-- 8XY3 `XOR Vx, Vy`: VF untouched (43_alu.md R125). -/
def execXorVxVy (x y : Reg) (s : State) : Outcome := .next (s.setReg x (s.reg x ^^^ s.reg y)).advanced

/-- 8XY4 `ADD Vx, Vy` (43_alu.md R126). -/
def execAddVxVy (x y : Reg) (s : State) : Outcome :=
  .next ((s.setReg x (s.reg x + s.reg y)).setFlag (carryOut (s.reg x) (s.reg y))).advanced

/-- 8XY5 `SUB Vx, Vy` (43_alu.md R127). -/
def execSubVxVy (x y : Reg) (s : State) : Outcome :=
  .next ((s.setReg x (s.reg x - s.reg y)).setFlag (noBorrow (s.reg x) (s.reg y))).advanced

/-- 8XY6 `SHR Vx`: in place, logical; the field `Y` is not used (43_alu.md R128). -/
def execShrVx (x _y : Reg) (s : State) : Outcome :=
  .next ((s.setReg x (s.reg x >>> 1)).setFlag (shiftedOutLow (s.reg x))).advanced

/-- 8XY7 `SUBN Vx, Vy` (43_alu.md R129). -/
def execSubnVxVy (x y : Reg) (s : State) : Outcome :=
  .next ((s.setReg x (s.reg y - s.reg x)).setFlag (noBorrow (s.reg y) (s.reg x))).advanced

/-- 8XYE `SHL Vx`: in place; the field `Y` is not used (43_alu.md R130). -/
def execShlVx (x _y : Reg) (s : State) : Outcome :=
  .next ((s.setReg x (s.reg x <<< 1)).setFlag (shiftedOutHigh (s.reg x))).advanced

/-- CXNN `RND Vx, nn`: the free random byte of this step, masked (43_alu.md R131). -/
def execRndVxNn (x : Reg) (nn : Byte) (s : State) : Outcome := .next (s.setReg x (s.rnd &&& nn)).advanced

end Sys2Proof.Machine
end

