-- ==== Sys2Proof/Machine/Display.lean ====
section
/-! DEFINITION. The sprite unit: 00E0, DXYN and the collision detector (45_display.md). -/

namespace Sys2Proof.Machine

/-- All 2048 pixels 0 (45_display.md R150). -/
def blankGfx : Gfx := Vector.replicate 64 (Vector.replicate 32 false)

/-- `gfx[x][y] <- gfx[x][y] ^ 1`. -/
def Gfx.flip (g : Gfx) (x : Fin 64) (y : Fin 32) : Gfx :=
  g.set x.val ((g.get x).set y.val (!g.pixel x y) y.isLt) x.isLt

/-- The bit of a sprite byte drawn in column `c`: bit `7 - c` (45_display.md R154; Config.spriteMsbLeft, log 6). -/
def spriteBit (b : Byte) (c : Nat) : Bool := b.getLsbD (if Config.spriteMsbLeft then 7 - c else c)

/-- `px = (V[X] + c) mod 64` (45_display.md R153). -/
def spriteColumn (x0 : Byte) (c : Nat) : Fin 64 := ⟨(x0.toNat + c) % 64, Nat.mod_lt _ (by decide)⟩

/-- `py = (V[Y] + r) mod 32` (45_display.md R153). -/
def spriteLine (y0 : Byte) (r : Nat) : Fin 32 := ⟨(y0.toNat + r) % 32, Nat.mod_lt _ (by decide)⟩

/-- The frame buffer and the collision found so far, `hit` of 45_display.md R151. -/
structure Canvas where
  gfx : Gfx
  hit : Bool
  deriving DecidableEq, Repr

/-- Column `c` of sprite row `r`, whose byte is `b` (45_display.md R151, the loop's body). -/
def drawDot (x0 y0 : Byte) (r : Nat) (b : Byte) (k : Canvas) (c : Nat) : Canvas :=
  if spriteBit b c then
    { gfx := k.gfx.flip (spriteColumn x0 c) (spriteLine y0 r),
      hit := k.hit || k.gfx.pixel (spriteColumn x0 c) (spriteLine y0 r) }
  else k

/-- Sprite row `r`: columns 0 to 7 (45_display.md R151). -/
def drawRow (x0 y0 : Byte) (r : Nat) (b : Byte) (k : Canvas) : Canvas := (List.range 8).foldl (drawDot x0 y0 r b) k

/-- The sprite's rows from row `r` on (45_display.md R151). -/
def drawRows (x0 y0 : Byte) : Nat → List Byte → Canvas → Canvas
  | _, [], k => k
  | r, b :: bs, k => drawRows x0 y0 (r + 1) bs (drawRow x0 y0 r b k)

/-- The frame buffer and the collision after a whole sprite is drawn onto `g` (45_display.md R151, R152). -/
def drawSprite (x0 y0 : Byte) (bytes : List Byte) (g : Gfx) : Canvas := drawRows x0 y0 0 bytes ⟨g, false⟩

/-- Replaces the frame buffer and sets `draw_flag`, changed pixels or not (10_state.md R20). -/
def State.shown (s : State) (g : Gfx) : State := { s with gfx := g, drawFlag := true }

/-- 00E0 `CLS` (45_display.md R150). -/
def execCls (s : State) : Outcome := .next (s.shown blankGfx).advanced

/-- DXYN `DRW Vx, Vy, n`: the origin is read before VF is written (45_display.md R151). -/
def execDrwVxVyN (x y : Reg) (n : BitVec 4) (s : State) : Outcome :=
  let drawn := drawSprite (s.reg x) (s.reg y) (s.memReads s.i.toNat n.toNat) s.gfx
  .next ((s.shown drawn.gfx).setFlag drawn.hit).advanced

end Sys2Proof.Machine
end

