-- ==== Sys2Proof/Machine/Flow.lean ====
section
/-! DEFINITION. Control transfer: 00EE, 1NNN, 2NNN, BNNN (41_flow.md). -/

namespace Sys2Proof.Machine

/-- 00EE `RET` (41_flow.md R100). -/
def execRet (s : State) : Outcome :=
  .next (if s.sp = 0#5 then s.raised .stackUnderflow else s.popSp.completed (s.popSp.stackTop + 2))

/-- 1NNN `JP nnn` (41_flow.md R101). -/
def execJp (nnn : BitVec 12) (s : State) : Outcome := .next (s.completed (zextNnn nnn))

/-- 2NNN `CALL nnn` (41_flow.md R102): pushes the address of the CALL itself. -/
def execCall (nnn : BitVec 12) (s : State) : Outcome :=
  .next (if s.sp = 16#5 then s.raised .stackOverflow else s.pushPc.completed (zextNnn nnn))

/-- BNNN `JP V0, nnn` (41_flow.md R103): the sum is not reduced to 12 bits. -/
def execJpV0Nnn (nnn : BitVec 12) (s : State) : Outcome :=
  .next (s.completed (zextNnn nnn + zextByte (s.reg 0x0#4)))

end Sys2Proof.Machine
end

