-- ==== Sys2Proof/Machine/IndexMemory.lean ====
section
/-! DEFINITION. The index register, and the loads and stores: ANNN, FX1E, FX29, FX33, FX55, FX65 (44_index_memory.md).  `I` is never
modified by a load or store (R146). -/

namespace Sys2Proof.Machine

/-- ANNN `LD I, nnn` (44_index_memory.md R140). -/
def execLdINnn (nnn : BitVec 12) (s : State) : Outcome := .next (s.setI (zextNnn nnn)).advanced

/-- FX1E `ADD I, Vx`: a 16-bit sum, the flag from the unwrapped one, written last (44_index_memory.md R141). -/
def execAddIVx (x : Reg) (s : State) : Outcome :=
  .next ((s.setI (s.i + zextByte (s.reg x))).setFlag (beyondAddressRange s.i (s.reg x))).advanced

/-- FX29 `LD F, Vx`: the whole byte is tested (44_index_memory.md R142). -/
def execLdFVx (x : Reg) (s : State) : Outcome :=
  .next (if (s.reg x).toNat > 0x0F then s.raised .invalidFontIndex else (s.setI (zextByte (s.reg x) * 5#16)).advanced)

/-- FX33 `LD B, Vx` (44_index_memory.md R143). -/
def execLdBVx (x : Reg) (s : State) : Outcome :=
  .next (s.storeBytes s.i.toNat (decimalDigits (s.reg x))).advanced

/-- FX55 `LD [I], Vx`: `V[0]` to `V[X]` (44_index_memory.md R144). -/
def execLdMemVx (x : Reg) (s : State) : Outcome :=
  .next (s.storeBytes s.i.toNat (s.regsBelow (x.toNat + 1))).advanced

/-- FX65 `LD Vx, [I]`: `V[0]` to `V[X]` (44_index_memory.md R145). -/
def execLdVxMem (x : Reg) (s : State) : Outcome :=
  .next (s.loadRegs s.i.toNat (x.toNat + 1)).advanced

end Sys2Proof.Machine
end

