-- ==== Sys2Proof/Machine/Skip.lean ====
section
/-! DEFINITION. Conditional skips: 3XNN, 4XNN, 5XY0, 9XY0, EX9E, EXA1 (42_skip.md). -/

namespace Sys2Proof.Machine

/-- 3XNN `SE Vx, nn` (42_skip.md R110). -/
def execSeVxNn (x : Reg) (nn : Byte) (s : State) : Outcome := .next (s.skippedIf (s.reg x == nn))

/-- 4XNN `SNE Vx, nn` (42_skip.md R111). -/
def execSneVxNn (x : Reg) (nn : Byte) (s : State) : Outcome := .next (s.skippedIf (s.reg x != nn))

/-- 5XY0 `SE Vx, Vy` (42_skip.md R112). -/
def execSeVxVy (x y : Reg) (s : State) : Outcome := .next (s.skippedIf (s.reg x == s.reg y))

/-- 9XY0 `SNE Vx, Vy` (42_skip.md R113). -/
def execSneVxVy (x y : Reg) (s : State) : Outcome := .next (s.skippedIf (s.reg x != s.reg y))

/-- EX9E `SKP Vx` (42_skip.md R114). -/
def execSkpVx (x : Reg) (s : State) : Outcome :=
  .next (s.skippedIf (keyPressed s.key (keyIndex (s.reg x)).toNat))

/-- EXA1 `SKNP Vx` (42_skip.md R115). -/
def execSknpVx (x : Reg) (s : State) : Outcome :=
  .next (s.skippedIf (!keyPressed s.key (keyIndex (s.reg x)).toNat))

end Sys2Proof.Machine
end

