-- ==== Sys2Proof/Machine/TimerKey.lean ====
section
/-! DEFINITION. Timer and key instructions: FX07, FX0A, FX15, FX18 (46_timer_key.md). -/

namespace Sys2Proof.Machine

/-- FX07 `LD Vx, DT`: DT before this step's tick (46_timer_key.md R160). -/
def execLdVxDt (x : Reg) (s : State) : Outcome := .next (s.setReg x s.dt).advanced

/-- FX0A `LD Vx, K`: waits while no key is pressed; else the smallest pressed key, by level (46_timer_key.md R161). -/
def execLdVxK (x : Reg) (s : State) : Outcome :=
  .next (match lowestKey s.key with
    | none => s.waiting
    | some k => (s.setReg x (BitVec.ofNat 8 k)).advanced)

/-- FX15 `LD DT, Vx` (46_timer_key.md R162). -/
def execLdDtVx (x : Reg) (s : State) : Outcome := .next (s.setDt (s.reg x)).advanced

/-- FX18 `LD ST, Vx` (46_timer_key.md R163). -/
def execLdStVx (x : Reg) (s : State) : Outcome := .next (s.setSt (s.reg x)).advanced

end Sys2Proof.Machine
end

