-- ==== Sys2Proof/Machine/Cycle.lean ====
section
/-! DEFINITION. The step transaction: latch, fetch, decode, execute, tick (40_step_cycle.md R70). -/

namespace Sys2Proof.Machine

/-- What follows the instruction: the tick, in a step that completes (40_step_cycle.md R70, steps 6 and 7). -/
def finish : Outcome → Outcome
  | .next t => .next t.ended
  | .fault r => .fault r
  | .refused r => .refused r

/-- Steps 4 to 7 of R70 on the fetched word: an illegal word raises `UnknownOpcode` before anything is executed
(60_exceptions.md R171). -/
def runWord (op : Word) (s : State) : Outcome :=
  match decode op with
  | .error _ => .next (s.raised .unknownOpcode)
  | .ok i => finish (exec i s)

/-- One `step`, with the inputs the host has lined up (40_step_cycle.md R70). -/
def cycle (s : State) : Outcome := runWord s.begun.fetchWord s.begun

end Sys2Proof.Machine
end

