-- ==== Sys2Proof/Machine/Step.lean ====
section
/-! DEFINITION. One step of the machine, and the state that fetches a given instruction next. -/

namespace Sys2Proof.Machine

/-- One `step` transaction (40_step_cycle.md R70). -/
def step (s : State) : Host.Outcome State Fault Refusal := cycle s

/-- The state whose next step fetches and runs the instruction with bits `w` in spec/opcode_table.json's numbering: its two bytes
stand at `pc` and `pc + 1`, modulo 4096, and nothing else changes.  It stands for the program load (log 9). -/
def State.withFetchWord (s : State) (nbits w : Nat) : State := s.placeWord nbits w

end Sys2Proof.Machine
end

