-- ==== Sys2Proof/Machine/Port.lean ====
section
/-! DEFINITION. The host's transactions other than `step` (92_eei_decisions.md D1): reset, load_program and presenting inputs.  The
read port on the frame buffer is `State.pixel` (Sys2Proof/Machine/Ops.lean). -/

namespace Sys2Proof.Machine

/-- Reset "from any previous state whatever" (70_reset_and_hazards.md R190).  The inputs lined up and the index of the free inputs
belong to the host and are not rewound (log 16). -/
def State.hostReset (s : State) : State := { State.reset with inputs := s.inputs, steps := s.steps }

/-- `load_program(bytes)`: the bytes verbatim at 0x200, or `RomTooLarge` and nothing written (20_memory.md R44, R45); once, after reset and
before the first step (92_eei_decisions.md D20). -/
def State.loadProgram (s : State) (bytes : List Byte) : Outcome :=
  if s.boot ≠ .fresh then .refused .loadOutOfOrder
  else if programFits bytes then .next { s.storeBytes 0x200 bytes with boot := .loaded }
  else .fault .romTooLarge

/-- The host lines up the inputs of one more step (10_state.md R22). -/
def State.presentInput (s : State) (inp : StepInput) : State := { s with inputs := s.inputs ++ [inp] }

end Sys2Proof.Machine
end

