-- ==== Sys2Proof/Safety.lean ====
section
/-! DEFINITION. What claims about runs are stated in: the invariant, errors, and a run without error. -/

namespace Sys2Proof.Machine

/-- The status is one of the four errors of a step (60_exceptions.md R170). -/
def Status.isError : Status → Bool
  | .running => false
  | .waitingForKey => false
  | .unknownOpcode => true
  | .stackOverflow => true
  | .stackUnderflow => true
  | .invalidFontIndex => true

/-- What holds after reset and is kept by every step: memory is in its canonical form and "0 <= sp <= 16" (10_state.md R17). -/
abbrev State.Inv (s : State) : Prop := s.mem.wf ∧ s.sp.toNat ≤ 16

/-- "No step returned an error" (60_exceptions.md R179): the next `n` steps from `s`. -/
def errorFree : Nat → State → Bool
  | 0, _ => true
  | n + 1, s =>
    match step s with
    | .next t => !t.status.isError && errorFree n t
    | .fault _ => false
    | .refused _ => false

/-- The block's own state (10_state.md R10) agrees but for `key` and `draw_flag`: what R74 says of a step that raises or waits. -/
structure SameButInputs (s t : State) : Prop where
  mem : t.mem = s.mem
  v : t.v = s.v
  i : t.i = s.i
  pc : t.pc = s.pc
  stack : t.stack = s.stack
  sp : t.sp = s.sp
  dt : t.dt = s.dt
  st : t.st = s.st
  gfx : t.gfx = s.gfx

/-- The column of a sprite drawn at `x0` that lands on frame-buffer column `px`, if it is below 8: the `c` of
`px = (V[X] + c) mod 64` (45_display.md R153). -/
def columnFor (x0 : Byte) (px : Fin 64) : Nat := (px.val + (64 - x0.toNat % 64)) % 64

/-- The row of a sprite drawn at `y0` that lands on frame-buffer row `py`: the `r` of `py = (V[Y] + r) mod 32` (45_display.md R153). -/
def rowFor (y0 : Byte) (py : Fin 32) : Nat := (py.val + (32 - y0.toNat % 32)) % 32

/-- The sprite of these bytes, drawn at `(x0, y0)`, has a 1 bit on frame-buffer pixel `(px, py)` (45_display.md R153). -/
def spriteCovers (x0 y0 : Byte) (bytes : List Byte) (px : Fin 64) (py : Fin 32) : Bool :=
  columnFor x0 px < 8 && rowFor y0 py < bytes.length && spriteBit (bytes.getD (rowFor y0 py) 0x00#8) (columnFor x0 px)

end Sys2Proof.Machine
end

