-- ==== Sys2Proof/Certificates/Slice0/Obligations.lean ====
section
/-! DEFINITION. The statements for the provers, from the spec's numbered rules.  First the words they are stated in: what an
instruction leaves as it was, one predicate per kind of state, then the statements in the order of the spec's files. -/

namespace Sys2Proof.Machine

/-! ## Frames -/

/-- No general register changes, VF included. -/
def KeepsRegs (s t : State) : Prop := ∀ r, t.reg r = s.reg r

/-- No general register changes but those for which `w` holds. -/
def KeepsRegsBut (w : Reg → Prop) (s t : State) : Prop := ∀ r, ¬ w r → t.reg r = s.reg r

/-- Every byte of memory reads as before. -/
def KeepsMemory (s t : State) : Prop := ∀ a, t.memRead a = s.memRead a

/-- Every byte of memory reads as before but the `n` bytes from address `a` on, taken modulo 4096. -/
def KeepsMemoryBut (a n : Nat) (s t : State) : Prop :=
  ∀ a', (∀ k, k < n → a' % 4096 ≠ (a + k) % 4096) → t.memRead a' = s.memRead a'

/-- The return stack and its pointer do not change. -/
def KeepsStack (s t : State) : Prop := t.stack = s.stack ∧ t.sp = s.sp

/-- Both timers hold their values (the tick comes after the instruction). -/
def KeepsTimers (s t : State) : Prop := t.dt = s.dt ∧ t.st = s.st

/-- No pixel changes and `draw_flag` holds its value. -/
def KeepsDisplay (s t : State) : Prop := (∀ px py, t.pixel px py = s.pixel px py) ∧ t.drawFlag = s.drawFlag

/-- The latched inputs, the `sound_triggered` output and the model's own fields do not change. -/
def KeepsPorts (s t : State) : Prop :=
  t.key = s.key ∧ t.rnd = s.rnd ∧ t.soundTriggered = s.soundTriggered ∧ t.inputs = s.inputs ∧ t.steps = s.steps ∧ t.boot = s.boot

/-- Nothing changes but `pc` and the status. -/
def OnlyPc (s t : State) : Prop :=
  KeepsRegs s t ∧ KeepsMemory s t ∧ t.i = s.i ∧ KeepsStack s t ∧ KeepsTimers s t ∧ KeepsDisplay s t ∧ KeepsPorts s t

/-- Nothing changes but `pc`, the status and the registers for which `w` holds. -/
def OnlyPcAndRegs (w : Reg → Prop) (s t : State) : Prop :=
  KeepsRegsBut w s t ∧ KeepsMemory s t ∧ t.i = s.i ∧ KeepsStack s t ∧ KeepsTimers s t ∧ KeepsDisplay s t ∧ KeepsPorts s t

/-- The instruction completes and `pc` goes on to the next one: `pc <- (pc + 2) mod 65536`. -/
def Advances (s t : State) : Prop := t.pc.toNat = (s.pc.toNat + 2) % 65536 ∧ t.status = .running

/-- A skip: `pc + 4` where `c` holds, `pc + 2` where it does not, modulo 65536 (42_skip.md R116). -/
def SkipsExactlyIf (c : Prop) (s t : State) : Prop :=
  (c → t.pc.toNat = (s.pc.toNat + 4) % 65536) ∧ (¬ c → t.pc.toNat = (s.pc.toNat + 2) % 65536) ∧ t.status = .running

/-! ## Who writes what (10_state.md R10, R12) -/

/-- The general registers an instruction may write, from the table of 10_state.md R10 and from R12. -/
def mayWriteReg (i : Instr) (r : Reg) : Prop :=
  match i with
  | .ldVxNn x _ | .addVxNn x _ | .ldVxVy x _ | .orVxVy x _ | .andVxVy x _ | .xorVxVy x _ => r = x
  | .rndVxNn x _ | .ldVxDt x | .ldVxK x => r = x
  | .addVxVy x _ | .subVxVy x _ | .shrVx x _ | .subnVxVy x _ | .shlVx x _ => r = x ∨ r = 0xF#4
  | .drwVxVyN _ _ _ | .addIVx _ => r = 0xF#4
  | .ldVxMem x => r.toNat ≤ x.toNat
  | .cls | .ret | .jp _ | .call _ | .seVxNn _ _ | .sneVxNn _ _ | .seVxVy _ _ | .sneVxVy _ _ | .ldINnn _ | .jpV0Nnn _ => False
  | .skpVx _ | .sknpVx _ | .ldDtVx _ | .ldStVx _ | .ldFVx _ | .ldBVx _ | .ldMemVx _ => False

/-- The seven opcodes that define a flag (10_state.md R12). -/
def definesFlag (i : Instr) : Prop :=
  match i with
  | .addVxVy _ _ | .subVxVy _ _ | .shrVx _ _ | .subnVxVy _ _ | .shlVx _ _ | .drwVxVyN _ _ _ | .addIVx _ => True
  | .cls | .ret | .jp _ | .call _ | .seVxNn _ _ | .sneVxNn _ _ | .seVxVy _ _ | .sneVxVy _ _ | .ldINnn _ | .jpV0Nnn _ => False
  | .ldVxNn _ _ | .addVxNn _ _ | .ldVxVy _ _ | .orVxVy _ _ | .andVxVy _ _ | .xorVxVy _ _ | .rndVxNn _ _ => False
  | .skpVx _ | .sknpVx _ | .ldVxDt _ | .ldVxK _ | .ldDtVx _ | .ldStVx _ | .ldFVx _ | .ldBVx _ | .ldMemVx _ | .ldVxMem _ => False

/-- The explicit jumps, calls and returns (10_state.md R14). -/
def setsPc (i : Instr) : Prop := i = .ret ∨ (∃ n, i = .jp n) ∨ (∃ n, i = .call n) ∨ ∃ n, i = .jpV0Nnn n

/-- The six skips (42_skip.md). -/
def isSkip (i : Instr) : Prop :=
  (∃ x n, i = .seVxNn x n) ∨ (∃ x n, i = .sneVxNn x n) ∨ (∃ x y, i = .seVxVy x y) ∨ (∃ x y, i = .sneVxVy x y) ∨
    (∃ x, i = .skpVx x) ∨ ∃ x, i = .sknpVx x

/-- A 1 bit of the `n`-row sprite at `I` lands on frame-buffer pixel `(px, py)` when it is drawn at `(x0, y0)`: bit `7 - c` of the
byte at `I + r`, at `((x0 + c) mod 64, (y0 + r) mod 32)` (45_display.md R153, R154). -/
def SpriteLandsOn (s : State) (x0 y0 : Byte) (n : Nat) (px : Fin 64) (py : Fin 32) : Prop :=
  ∃ r c, r < n ∧ c < 8 ∧ (s.memRead (s.i.toNat + r)).getLsbD (7 - c) = true ∧
    px.val = (x0.toNat + c) % 64 ∧ py.val = (y0.toNat + r) % 32

end Sys2Proof.Machine

open Sys2Proof Sys2Proof.Machine

/-! ## Encoding (30_encoding.md) -/

/-- 30_encoding.md section 4 and 95_test_vectors.md 2.1: words written out from the table decode to the instructions they stand for. -/
def Obligations.SampleWordsDecode : Prop :=
  decode 0x00E0 = .ok .cls ∧ decode 0x00EE = .ok .ret ∧ decode 0x2FFF = .ok (.call 0xFFF) ∧
  decode 0x3A7F = .ok (.seVxNn 0xA 0x7F) ∧ decode 0x5AB0 = .ok (.seVxVy 0xA 0xB) ∧ decode 0x8AB4 = .ok (.addVxVy 0xA 0xB) ∧
  decode 0x81F6 = .ok (.shrVx 0x1 0xF) ∧ decode 0xD5A3 = .ok (.drwVxVyN 0x5 0xA 0x3) ∧ decode 0xEFA1 = .ok (.sknpVx 0xF) ∧
  decode 0xFE33 = .ok (.ldBVx 0xE) ∧ decode 0xF50A = .ok (.ldVxK 0x5)

/-- 30_encoding.md R51 to R53: no bit of an encoding is dropped. -/
def Obligations.DecodeOfEncodeIsTheInstruction : Prop := ∀ i : Instr, decode (encode i) = .ok i

/-- 30_encoding.md R66: a legal word has one meaning, and the instruction keeps all of its bits (the don't-care `Y` of 8XY6 and 8XYE
is kept by the model's choice, log 15). -/
def Obligations.EncodeOfDecodeIsTheWord : Prop := ∀ (w : Word) (i : Instr), decode w = .ok i → encode i = w

/-- 30_encoding.md R60: the words the decoder accepts are exactly those that are not on the list of illegal words. -/
def Obligations.DecoderAcceptsExactlyTheLegalWords : Prop := ∀ w : Word, (∃ i, decode w = .ok i) ↔ wordLegal w = true

/-- 30_encoding.md R66: a word selects a row of the opcode table exactly if it decodes to an instruction of that row, and it selects at
most one. -/
def Obligations.TableRowsSelectTheirInstructions : Prop :=
  opcodeTable.length = 34 ∧
  (∀ (w : Word) (r : TableRow), r ∈ opcodeTable → (w &&& r.mask = r.pat ↔ ∃ i, decode w = .ok i ∧ i.row = r)) ∧
  (∀ (w : Word) (r r' : TableRow), r ∈ opcodeTable → r' ∈ opcodeTable → w &&& r.mask = r.pat → w &&& r'.mask = r'.pat → r = r')

/-! ## The step (40_step_cycle.md) -/

/-- 20_memory.md R33: the byte at the lower address is `op[15:8]`, the byte at the higher address is `op[7:0]`. -/
def Obligations.FetchIsBigEndian : Prop :=
  ∀ s : State, s.fetchWord.extractLsb' 8 8 = s.memRead s.pc.toNat ∧ s.fetchWord.extractLsb' 0 8 = s.memRead (s.pc.toNat + 1)

/-- 40_step_cycle.md R78 and 10_state.md R22: every step, whatever its outcome, latches the key vector and samples the random byte.
Where the inputs come from is the model's choice (log 1, log 2). -/
def Obligations.StepLatchesItsInputs : Prop :=
  (∀ s t : State, step s = .next t →
    t.key = s.nextInput.pressedKeys ∧ t.rnd = s.nextInput.rnd ∧ t.inputs = s.inputs.tail ∧ t.steps = s.steps + 1) ∧
  (∀ (s : State) (inp : StepInput) (rest : List StepInput), s.inputs = inp :: rest → s.nextInput = inp) ∧
  (∀ s : State, s.inputs = [] → s.nextInput = ⟨Config.freeKeys s.steps, Config.freeRnd s.steps⟩)

/-- 40_step_cycle.md R70: a step whose fetched word decodes to `i` runs `i` on the state in which the inputs are latched and `draw_flag` is
cleared, and then ticks the timers if the instruction completed. -/
def Obligations.StepRunsTheDecodedInstruction : Prop :=
  ∀ (s t : State) (i : Instr), decode s.fetchWord = .ok i →
    exec i { s with key := s.nextInput.pressedKeys, rnd := s.nextInput.rnd, drawFlag := false, soundTriggered := false,
                    inputs := s.inputs.tail, steps := s.steps + 1, boot := .running } = .next t →
    step s = .next (if t.status = .running
      then { t with dt := countDown t.dt, st := countDown t.st, soundTriggered := t.st == 0x01#8 } else t)

/-- 60_exceptions.md R171, R178: an illegal word raises `UnknownOpcode` and changes nothing but the input latches and `draw_flag`
(92_eei_decisions.md D12; that the error is a next state is log 4). -/
def Obligations.IllegalWordRaisesUnknownOpcode : Prop :=
  ∀ s : State, wordLegal s.fetchWord = false →
    ∃ t, step s = .next t ∧ t.status = .unknownOpcode ∧ SameButInputs s t ∧ t.drawFlag = false ∧ t.soundTriggered = false

/-- 40_step_cycle.md R73: a step always ends in one of the three outcomes, each a next state of the model (log 4): it never stops. -/
def Obligations.StepAlwaysAnswersANextState : Prop := ∀ s : State, ∃ t, step s = .next t

/-- 10_state.md R17 and log 7: every step keeps `0 <= sp <= 16` and the canonical form of memory. -/
def Obligations.StepKeepsStackRangeAndMemoryForm : Prop :=
  ∀ s t : State, s.Inv → step s = .next t → t.Inv

/-- 10_state.md R17: the invariant holds after reset. -/
def Obligations.ResetMeetsStackRangeAndMemoryForm : Prop := State.reset.Inv

/-- 40_step_cycle.md R74: a step that raises or waits changes nothing of the block but `key` and `draw_flag`
(92_eei_decisions.md D12). -/
def Obligations.AbortedStepChangesNothing : Prop :=
  ∀ s t : State, step s = .next t → t.status ≠ .running →
    SameButInputs s t ∧ t.drawFlag = false ∧ t.soundTriggered = false

/-- 60_exceptions.md R179: after an error, every further run returns the same error and leaves the block as it was. -/
def Obligations.ErrorRepeatsForEver : Prop :=
  ∀ (s t : State) (n : Nat), step s = .next t → t.status.isError = true →
    ∃ u, Host.Core.run core n t = .next u ∧ u.status = t.status ∧ SameButInputs t u

/-- 46_timer_key.md R161 (a), 60_exceptions.md R185: after a waiting step the next step waits again exactly if it is given no pressed key, and
otherwise completes. -/
def Obligations.WaitEndsExactlyWithAPressedKey : Prop :=
  ∀ s t : State, step s = .next t → t.status = .waitingForKey →
    ∃ u, step t = .next u ∧ (t.nextInput.pressedKeys = 0 → u.status = .waitingForKey ∧ u.pc = t.pc) ∧
      (t.nextInput.pressedKeys ≠ 0 → u.status = .running ∧ u.pc = t.pc + 2)

/-- 10_state.md R20: after a step `draw_flag` is 1 if and only if the instruction executed in it was 00E0 or DXYN. -/
def Obligations.DrawFlagSetExactlyByDisplayInstructions : Prop :=
  ∀ s t : State, step s = .next t →
    (t.drawFlag = true ↔ decode s.fetchWord = .ok .cls ∨ ∃ x y n, decode s.fetchWord = .ok (.drwVxVyN x y n))

/-- 46_timer_key.md R165: `sound_triggered` is 1 if and only if the step completed and ST was exactly 1 when the tick ran, so that ST is
then 0. -/
def Obligations.SoundTriggersExactlyWhenTimerReachesZero : Prop :=
  ∀ s t : State, step s = .next t →
    (t.soundTriggered = true ↔
      t.status = .running ∧ ∃ i u, decode s.fetchWord = .ok i ∧ exec i s.begun = .next u ∧ u.st = 1) ∧
    (t.soundTriggered = true → t.st = 0)

/-- 46_timer_key.md R164: the timers count completing steps, down to 0, and change in no other step; FX15 and FX18 are the only other
writers. -/
def Obligations.TimersCountCompletingSteps : Prop :=
  ∀ (s t : State), step s = .next t →
    (t.status ≠ .running → t.dt = s.dt ∧ t.st = s.st) ∧
    (t.status = .running →
      ((∀ x, decode s.fetchWord ≠ .ok (.ldDtVx x)) → t.dt.toNat = s.dt.toNat - 1) ∧
      ((∀ x, decode s.fetchWord ≠ .ok (.ldStVx x)) → t.st.toNat = s.st.toNat - 1))

/-- 46_timer_key.md R160, R162, R163: FX07 reads DT before the tick of its step; the values FX15 and FX18 write are ticked in the same
step. -/
def Obligations.TimerInstructionsAndTheTickOfTheirStep : Prop :=
  ∀ (s : State) (x : Reg),
    (decode s.fetchWord = .ok (.ldVxDt x) →
      ∃ t, step s = .next t ∧ t.status = .running ∧ t.reg x = s.dt ∧ t.dt.toNat = s.dt.toNat - 1) ∧
    (decode s.fetchWord = .ok (.ldDtVx x) →
      ∃ t, step s = .next t ∧ t.status = .running ∧ t.dt.toNat = (s.reg x).toNat - 1) ∧
    (decode s.fetchWord = .ok (.ldStVx x) →
      ∃ t, step s = .next t ∧ t.status = .running ∧ t.st.toNat = (s.reg x).toNat - 1 ∧
        (t.soundTriggered = true ↔ s.reg x = 1))

/-! ## Whole-machine rules (10_state.md) -/

/-- 10_state.md R14: `pc` advances by exactly 2 unless the instruction is an explicit jump, call, return or skip; an instruction that
raises or waits does not change it. -/
def Obligations.PcAdvancesByTwoUnlessControlTransfer : Prop :=
  ∀ (i : Instr) (s t : State), exec i s = .next t →
    (t.status = .running → ¬ setsPc i → t.pc = s.pc + 2 ∨ (isSkip i ∧ t.pc = s.pc + 4)) ∧
    (t.status ≠ .running → t.pc = s.pc)

/-- 10_state.md R10, the column "written by", but for `V`: each part is written by its writers only. -/
def Obligations.EachPartHasOnlyItsWriters : Prop :=
  ∀ (i : Instr) (s t : State), exec i s = .next t →
    ((∀ x, i ≠ .ldBVx x) → (∀ x, i ≠ .ldMemVx x) → KeepsMemory s t) ∧
    ((∀ n, i ≠ .ldINnn n) → (∀ x, i ≠ .addIVx x) → (∀ x, i ≠ .ldFVx x) → t.i = s.i) ∧
    ((∀ n, i ≠ .call n) → t.stack = s.stack) ∧
    ((∀ n, i ≠ .call n) → i ≠ .ret → t.sp = s.sp) ∧
    ((∀ x, i ≠ .ldDtVx x) → t.dt = s.dt) ∧
    ((∀ x, i ≠ .ldStVx x) → t.st = s.st) ∧
    (i ≠ .cls → (∀ x y n, i ≠ .drwVxVyN x y n) → KeepsDisplay s t) ∧
    KeepsPorts s t

/-- 10_state.md R12: the flag-defining opcodes leave VF at 0x00 or 0x01, and every opcode leaves every register, VF among them, as it was
unless the register is its destination or VF defined by it. -/
def Obligations.RegistersAndFlagHaveOnlyTheirWriters : Prop :=
  ∀ (i : Instr) (s t : State), exec i s = .next t →
    (∀ r, ¬ mayWriteReg i r → t.reg r = s.reg r) ∧
    (definesFlag i → t.reg 0xF#4 = 0x00#8 ∨ t.reg 0xF#4 = 0x01#8)

/-- 10_state.md R22: `rnd` is "ignored otherwise": no instruction but CXNN depends on it. -/
def Obligations.RandomByteReachesOnlyRnd : Prop :=
  ∀ (i : Instr) (s : State) (b : Byte), (∀ x nn, i ≠ .rndVxNn x nn) →
    ∃ t, exec i s = .next t ∧ exec i { s with rnd := b } = .next { t with rnd := b }

/-- 10_state.md R21: only EX9E, EXA1 and FX0A read the key vector. -/
def Obligations.KeysReachOnlyKeyInstructions : Prop :=
  ∀ (i : Instr) (s : State) (k : Word), (∀ x, i ≠ .skpVx x) → (∀ x, i ≠ .sknpVx x) → (∀ x, i ≠ .ldVxK x) →
    ∃ t, exec i s = .next t ∧ exec i { s with key := k } = .next { t with key := k }

/-! ## Memory (20_memory.md) -/

/-- 20_memory.md R43: bytes stored by FX55 over the next instruction are what the next fetch reads. -/
def Obligations.NextFetchSeesStoredRegisters : Prop :=
  ∀ (s : State) (x : Reg), 1 ≤ x.toNat → s.i.toNat % 4096 = (s.pc.toNat + 2) % 4096 →
    ∃ t, exec (.ldMemVx x) s = .next t ∧ t.fetchWord.toNat = (s.reg 0x0#4).toNat * 256 + (s.reg 0x1#4).toNat

/-- 20_memory.md R34, R36: registers stored by FX55 are loaded back by FX65, whatever the registers held in between. -/
def Obligations.StoredRegistersLoadBack : Prop :=
  ∀ (s : State) (x : Reg) (v' : Vector Byte 16),
    ∃ t u, exec (.ldMemVx x) s = .next t ∧ exec (.ldVxMem x) { t with v := v' } = .next u ∧
      ∀ r : Reg, r.toNat ≤ x.toNat → u.reg r = s.reg r

/-- Log 7: two memories in canonical form that read the same at every address are the same data. -/
def Obligations.CanonicalMemoriesThatReadAlikeAreEqual : Prop :=
  ∀ m m' : Memory, m.wf → m'.wf → (∀ a, a < 4096 → m.read a = m'.read a) → m = m'

/-! ## Reset and load (10_state.md R27, 20_memory.md R44, R45, 70_reset_and_hazards.md) -/

/-- 10_state.md R27: every piece of state after reset.  The 80 bytes themselves are the parameter FONT at its default, log 5. -/
def Obligations.ResetValues : Prop :=
  font.length = 80 ∧
  (∀ (a : Nat) (h : a < font.length), State.reset.memRead a = font[a]) ∧
  (∀ a, 0x050 ≤ a → a ≤ 0xFFF → State.reset.memRead a = 0x00#8) ∧
  (∀ r, State.reset.reg r = 0x00#8) ∧ State.reset.i = 0x0000 ∧ State.reset.pc = 0x0200 ∧
  (∀ k, State.reset.stack.get k = 0x0000) ∧ State.reset.sp = 0 ∧ State.reset.dt = 0x00#8 ∧ State.reset.st = 0x00#8 ∧
  (∀ px py, State.reset.pixel px py = false) ∧ State.reset.drawFlag = false ∧ State.reset.key = 0x0000

/-- 70_reset_and_hazards.md R190: reset sets every part of the block to its reset value from any previous state.  That the host's inputs are
not rewound is the model's choice (log 16). -/
def Obligations.HostResetFromAnyState : Prop :=
  ∀ s : State, SameButInputs State.reset s.hostReset ∧ s.hostReset.drawFlag = State.reset.drawFlag ∧
    s.hostReset.key = State.reset.key ∧ s.hostReset.boot = .fresh ∧
    s.hostReset.inputs = s.inputs ∧ s.hostReset.steps = s.steps

/-- 20_memory.md R44: `load_program` copies the bytes to 0x200 and changes nothing else of the block. -/
def Obligations.LoadProgramCopiesTheBytes : Prop :=
  ∀ (s : State) (bytes : List Byte), s.boot = .fresh → bytes.length ≤ 3584 →
    ∃ t, s.loadProgram bytes = .next t ∧
      (∀ (k : Nat) (h : k < bytes.length), t.memRead (0x200 + k) = bytes[k]) ∧
      (∀ a, a < 4096 → (a < 0x200 ∨ 0x200 + bytes.length ≤ a) → t.memRead a = s.memRead a) ∧
      KeepsRegs s t ∧ t.i = s.i ∧ t.pc = s.pc ∧ KeepsStack s t ∧ KeepsTimers s t ∧ KeepsDisplay s t ∧ t.key = s.key ∧
      t.status = s.status ∧ t.soundTriggered = s.soundTriggered

/-- 20_memory.md R45: `load_program` fails with `RomTooLarge` exactly past 3584 bytes; a load out of order has no move
(92_eei_decisions.md D20, log 8). -/
def Obligations.LoadProgramRejects : Prop :=
  (∀ (s : State) (bytes : List Byte), s.boot = .fresh → (s.loadProgram bytes = .fault .romTooLarge ↔ bytes.length > 3584)) ∧
  (∀ (s : State) (bytes : List Byte), s.boot ≠ .fresh → s.loadProgram bytes = .refused .loadOutOfOrder)

/-! ## Control transfer (41_flow.md) -/

/-- 41_flow.md R101. -/
def Obligations.JumpGoesToItsTarget : Prop :=
  ∀ (nnn : BitVec 12) (s : State), ∃ t, exec (.jp nnn) s = .next t ∧
    t.pc.toNat = nnn.toNat ∧ t.status = .running ∧ OnlyPc s t

/-- 41_flow.md R103: the sum is kept in full (92_eei_decisions.md D6). -/
def Obligations.JumpV0AddsV0Unmasked : Prop :=
  ∀ (nnn : BitVec 12) (s : State), ∃ t, exec (.jpV0Nnn nnn) s = .next t ∧
    t.pc.toNat = nnn.toNat + (s.reg 0x0#4).toNat ∧ t.status = .running ∧ OnlyPc s t

/-- 41_flow.md R102: CALL pushes its own address and jumps; with sixteen entries in use it raises `StackOverflow` and writes nothing. -/
def Obligations.CallPushesItsAddressOrOverflows : Prop :=
  ∀ (nnn : BitVec 12) (s : State),
    (∀ h : s.sp.toNat < 16, ∃ t, exec (.call nnn) s = .next t ∧
      t.stack.get ⟨s.sp.toNat, h⟩ = s.pc ∧ (∀ k : Fin 16, k.val ≠ s.sp.toNat → t.stack.get k = s.stack.get k) ∧
      t.sp.toNat = s.sp.toNat + 1 ∧ t.pc.toNat = nnn.toNat ∧ t.status = .running ∧
      KeepsRegs s t ∧ KeepsMemory s t ∧ t.i = s.i ∧ KeepsTimers s t ∧ KeepsDisplay s t ∧ KeepsPorts s t) ∧
    (s.sp.toNat = 16 → exec (.call nnn) s = .next { s with status := .stackOverflow })

/-- 41_flow.md R100: RET pops and goes to the popped address plus 2; with an empty stack it raises `StackUnderflow` and writes nothing. -/
def Obligations.ReturnPopsOrUnderflows : Prop :=
  ∀ s : State,
    (∀ h : 1 ≤ s.sp.toNat ∧ s.sp.toNat ≤ 16, ∃ t, exec .ret s = .next t ∧
      t.sp.toNat = s.sp.toNat - 1 ∧ t.pc.toNat = ((s.stack.get ⟨s.sp.toNat - 1, by omega⟩).toNat + 2) % 65536 ∧
      t.stack = s.stack ∧ t.status = .running ∧
      KeepsRegs s t ∧ KeepsMemory s t ∧ t.i = s.i ∧ KeepsTimers s t ∧ KeepsDisplay s t ∧ KeepsPorts s t) ∧
    (s.sp.toNat = 0 → exec .ret s = .next { s with status := .stackUnderflow })

/-- 41_flow.md R100, R102: a return from a subroutine that left the stack as the call did goes to the instruction after the call. -/
def Obligations.ReturnGoesToTheInstructionAfterTheCall : Prop :=
  ∀ (nnn : BitVec 12) (s t t' : State), s.sp.toNat < 16 → exec (.call nnn) s = .next t →
    t'.stack = t.stack → t'.sp = t.sp →
    ∃ u, exec .ret t' = .next u ∧ u.pc = s.pc + 2 ∧ u.sp = s.sp ∧ u.status = .running

/-! ## Skips (42_skip.md) -/

/-- 42_skip.md R110, R111. -/
def Obligations.SkipOnImmediate : Prop :=
  ∀ (x : Reg) (nn : Byte) (s : State),
    (∃ t, exec (.seVxNn x nn) s = .next t ∧ SkipsExactlyIf (s.reg x = nn) s t ∧ OnlyPc s t) ∧
    (∃ t, exec (.sneVxNn x nn) s = .next t ∧ SkipsExactlyIf (s.reg x ≠ nn) s t ∧ OnlyPc s t)

/-- 42_skip.md R112, R113. -/
def Obligations.SkipOnRegisters : Prop :=
  ∀ (x y : Reg) (s : State),
    (∃ t, exec (.seVxVy x y) s = .next t ∧ SkipsExactlyIf (s.reg x = s.reg y) s t ∧ OnlyPc s t) ∧
    (∃ t, exec (.sneVxVy x y) s = .next t ∧ SkipsExactlyIf (s.reg x ≠ s.reg y) s t ∧ OnlyPc s t)

/-- 42_skip.md R114, R115: the key is selected by the low nibble (92_eei_decisions.md D9). -/
def Obligations.SkipOnKey : Prop :=
  ∀ (x : Reg) (s : State),
    (∃ t, exec (.skpVx x) s = .next t ∧ SkipsExactlyIf (s.key.getLsbD ((s.reg x).toNat % 16) = true) s t ∧ OnlyPc s t) ∧
    (∃ t, exec (.sknpVx x) s = .next t ∧ SkipsExactlyIf (s.key.getLsbD ((s.reg x).toNat % 16) = false) s t ∧ OnlyPc s t)

/-! ## Loads and arithmetic (43_alu.md) -/

/-- 43_alu.md R120, R122. -/
def Obligations.RegisterLoads : Prop :=
  ∀ (x y : Reg) (nn : Byte) (s : State),
    (∃ t, exec (.ldVxNn x nn) s = .next t ∧ t.reg x = nn ∧ Advances s t ∧ OnlyPcAndRegs (· = x) s t) ∧
    (∃ t, exec (.ldVxVy x y) s = .next t ∧ t.reg x = s.reg y ∧ Advances s t ∧ OnlyPcAndRegs (· = x) s t)

/-- 43_alu.md R121: wraps modulo 256 and leaves VF alone. -/
def Obligations.AddImmediateWrapsWithoutFlag : Prop :=
  ∀ (x : Reg) (nn : Byte) (s : State), ∃ t, exec (.addVxNn x nn) s = .next t ∧
    (t.reg x).toNat = ((s.reg x).toNat + nn.toNat) % 256 ∧ Advances s t ∧ OnlyPcAndRegs (· = x) s t

/-- 43_alu.md R123, R124, R125: VF is not touched. -/
def Obligations.LogicalOperationsLeaveFlag : Prop :=
  ∀ (x y : Reg) (s : State),
    (∃ t, exec (.orVxVy x y) s = .next t ∧ t.reg x = s.reg x ||| s.reg y ∧ Advances s t ∧ OnlyPcAndRegs (· = x) s t) ∧
    (∃ t, exec (.andVxVy x y) s = .next t ∧ t.reg x = s.reg x &&& s.reg y ∧ Advances s t ∧ OnlyPcAndRegs (· = x) s t) ∧
    (∃ t, exec (.xorVxVy x y) s = .next t ∧ t.reg x = s.reg x ^^^ s.reg y ∧ Advances s t ∧ OnlyPcAndRegs (· = x) s t)

/-- 43_alu.md R126.  For `x = F` see FlagIsWrittenAfterTheResult. -/
def Obligations.AddSetsSumAndCarry : Prop :=
  ∀ (x y : Reg) (s : State), ∃ t, exec (.addVxVy x y) s = .next t ∧
    (x ≠ 0xF#4 → (t.reg x).toNat = ((s.reg x).toNat + (s.reg y).toNat) % 256 ∧
      t.reg 0xF#4 = if (s.reg x).toNat + (s.reg y).toNat > 255 then 0x01#8 else 0x00#8) ∧
    Advances s t ∧ OnlyPcAndRegs (fun r => r = x ∨ r = 0xF#4) s t

/-- 43_alu.md R127, R129.  For `x = F` see FlagIsWrittenAfterTheResult. -/
def Obligations.SubtractSetsDifferenceAndNoBorrow : Prop :=
  ∀ (x y : Reg) (s : State),
    (∃ t, exec (.subVxVy x y) s = .next t ∧
      (x ≠ 0xF#4 → (t.reg x).toNat = ((s.reg x).toNat + 256 - (s.reg y).toNat) % 256 ∧
        t.reg 0xF#4 = if (s.reg x).toNat ≥ (s.reg y).toNat then 0x01#8 else 0x00#8) ∧
      Advances s t ∧ OnlyPcAndRegs (fun r => r = x ∨ r = 0xF#4) s t) ∧
    (∃ t, exec (.subnVxVy x y) s = .next t ∧
      (x ≠ 0xF#4 → (t.reg x).toNat = ((s.reg y).toNat + 256 - (s.reg x).toNat) % 256 ∧
        t.reg 0xF#4 = if (s.reg y).toNat ≥ (s.reg x).toNat then 0x01#8 else 0x00#8) ∧
      Advances s t ∧ OnlyPcAndRegs (fun r => r = x ∨ r = 0xF#4) s t)

/-- 43_alu.md R128, R130: in place, logical, `Y` not used (92_eei_decisions.md D4).  For `x = F` see FlagIsWrittenAfterTheResult. -/
def Obligations.ShiftsMoveByOneBit : Prop :=
  ∀ (x y : Reg) (s : State),
    (∃ t, exec (.shrVx x y) s = .next t ∧
      (x ≠ 0xF#4 → (t.reg x).toNat = (s.reg x).toNat / 2 ∧ (t.reg 0xF#4).toNat = (s.reg x).toNat % 2) ∧
      Advances s t ∧ OnlyPcAndRegs (fun r => r = x ∨ r = 0xF#4) s t) ∧
    (∃ t, exec (.shlVx x y) s = .next t ∧
      (x ≠ 0xF#4 → (t.reg x).toNat = (s.reg x).toNat * 2 % 256 ∧ (t.reg 0xF#4).toNat = (s.reg x).toNat / 128) ∧
      Advances s t ∧ OnlyPcAndRegs (fun r => r = x ∨ r = 0xF#4) s t)

/-- 43_alu.md R132 with 92_eei_decisions.md D5: where the destination is VF, the flag is what VF holds afterwards. -/
def Obligations.FlagIsWrittenAfterTheResult : Prop :=
  ∀ (y : Reg) (s : State),
    (∃ t, exec (.addVxVy 0xF#4 y) s = .next t ∧ t.status = .running ∧
      t.reg 0xF#4 = if (s.reg 0xF#4).toNat + (s.reg y).toNat > 255 then 0x01#8 else 0x00#8) ∧
    (∃ t, exec (.subVxVy 0xF#4 y) s = .next t ∧ t.status = .running ∧
      t.reg 0xF#4 = if (s.reg 0xF#4).toNat ≥ (s.reg y).toNat then 0x01#8 else 0x00#8) ∧
    (∃ t, exec (.subnVxVy 0xF#4 y) s = .next t ∧ t.status = .running ∧
      t.reg 0xF#4 = if (s.reg y).toNat ≥ (s.reg 0xF#4).toNat then 0x01#8 else 0x00#8) ∧
    (∃ t, exec (.shrVx 0xF#4 y) s = .next t ∧ t.status = .running ∧ (t.reg 0xF#4).toNat = (s.reg 0xF#4).toNat % 2) ∧
    (∃ t, exec (.shlVx 0xF#4 y) s = .next t ∧ t.status = .running ∧ (t.reg 0xF#4).toNat = (s.reg 0xF#4).toNat / 128)

/-- 43_alu.md R131: the random byte of the step, whatever it is (log 1, log 2), masked; every bit clear in `NN` is clear in the result. -/
def Obligations.RandomByteIsMasked : Prop :=
  ∀ (x : Reg) (nn : Byte) (s : State), ∃ t, exec (.rndVxNn x nn) s = .next t ∧
    t.reg x = s.rnd &&& nn ∧ t.reg x &&& ~~~nn = 0 ∧ Advances s t ∧ OnlyPcAndRegs (· = x) s t

/-! ## Index register and memory instructions (44_index_memory.md) -/

/-- 44_index_memory.md R140. -/
def Obligations.LoadIndex : Prop :=
  ∀ (nnn : BitVec 12) (s : State), ∃ t, exec (.ldINnn nnn) s = .next t ∧ t.i.toNat = nnn.toNat ∧ Advances s t ∧
    KeepsRegs s t ∧ KeepsMemory s t ∧ KeepsStack s t ∧ KeepsTimers s t ∧ KeepsDisplay s t ∧ KeepsPorts s t

/-- 44_index_memory.md R141: the flag is from the unwrapped sum (92_eei_decisions.md D15) and written last (D5). -/
def Obligations.AddIndexSetsRangeFlag : Prop :=
  ∀ (x : Reg) (s : State), ∃ t, exec (.addIVx x) s = .next t ∧
    t.i.toNat = (s.i.toNat + (s.reg x).toNat) % 65536 ∧
    (t.reg 0xF#4 = if s.i.toNat + (s.reg x).toNat > 0xFFF then 0x01#8 else 0x00#8) ∧ Advances s t ∧
    KeepsRegsBut (· = 0xF#4) s t ∧ KeepsMemory s t ∧ KeepsStack s t ∧ KeepsTimers s t ∧ KeepsDisplay s t ∧ KeepsPorts s t

/-- 44_index_memory.md R142: the whole byte is tested. -/
def Obligations.LoadFontAddressOrInvalidIndex : Prop :=
  ∀ (x : Reg) (s : State),
    ((s.reg x).toNat ≤ 0xF → ∃ t, exec (.ldFVx x) s = .next t ∧ t.i.toNat = (s.reg x).toNat * 5 ∧ Advances s t ∧
      KeepsRegs s t ∧ KeepsMemory s t ∧ KeepsStack s t ∧ KeepsTimers s t ∧ KeepsDisplay s t ∧ KeepsPorts s t) ∧
    ((s.reg x).toNat > 0xF → exec (.ldFVx x) s = .next { s with status := .invalidFontIndex })

/-- 44_index_memory.md R143: three whole-byte digits at `I`, `I + 1`, `I + 2`, addresses modulo 4096 (92_eei_decisions.md D6); `I` unchanged (D14). -/
def Obligations.StoreDecimalDigits : Prop :=
  ∀ (x : Reg) (s : State), ∃ t, exec (.ldBVx x) s = .next t ∧
    (t.memRead s.i.toNat).toNat = (s.reg x).toNat / 100 ∧
    (t.memRead (s.i.toNat + 1)).toNat = (s.reg x).toNat / 10 % 10 ∧
    (t.memRead (s.i.toNat + 2)).toNat = (s.reg x).toNat % 10 ∧
    KeepsMemoryBut s.i.toNat 3 s t ∧ Advances s t ∧
    KeepsRegs s t ∧ t.i = s.i ∧ KeepsStack s t ∧ KeepsTimers s t ∧ KeepsDisplay s t ∧ KeepsPorts s t

/-- 44_index_memory.md R144: `V[0]` to `V[X]` at `I` to `I + X`, addresses modulo 4096 (92_eei_decisions.md D6); `I` unchanged (D14). -/
def Obligations.StoreRegisters : Prop :=
  ∀ (x : Reg) (s : State), ∃ t, exec (.ldMemVx x) s = .next t ∧
    (∀ r : Reg, r.toNat ≤ x.toNat → t.memRead (s.i.toNat + r.toNat) = s.reg r) ∧
    KeepsMemoryBut s.i.toNat (x.toNat + 1) s t ∧ Advances s t ∧
    KeepsRegs s t ∧ t.i = s.i ∧ KeepsStack s t ∧ KeepsTimers s t ∧ KeepsDisplay s t ∧ KeepsPorts s t

/-- 44_index_memory.md R145: `V[0]` to `V[X]` from `I` to `I + X`; `I` unchanged (92_eei_decisions.md D14). -/
def Obligations.LoadRegisters : Prop :=
  ∀ (x : Reg) (s : State), ∃ t, exec (.ldVxMem x) s = .next t ∧
    (∀ r : Reg, r.toNat ≤ x.toNat → t.reg r = s.memRead (s.i.toNat + r.toNat)) ∧
    Advances s t ∧ OnlyPcAndRegs (fun r => r.toNat ≤ x.toNat) s t

/-! ## Display (45_display.md) -/

/-- 45_display.md R150. -/
def Obligations.ClearScreen : Prop :=
  ∀ s : State, ∃ t, exec .cls s = .next t ∧ (∀ px py, t.pixel px py = false) ∧ t.drawFlag = true ∧ Advances s t ∧
    KeepsRegs s t ∧ KeepsMemory s t ∧ t.i = s.i ∧ KeepsStack s t ∧ KeepsTimers s t ∧ KeepsPorts s t

/-- 45_display.md R151 to R154: exactly the pixels on which a 1 bit of the sprite lands are flipped, VF is 1 exactly if one of them goes
from 1 to 0, and `draw_flag` is set.  The order of the bits of a sprite byte is from general knowledge (log 6); the coordinates are read before
VF is written (92_eei_decisions.md D5); addresses are modulo 4096 (D6). -/
def Obligations.DrawFlipsTheSpritesPixels : Prop :=
  ∀ (x y : Reg) (n : BitVec 4) (s : State), ∃ t, exec (.drwVxVyN x y n) s = .next t ∧
    (∀ px py, (SpriteLandsOn s (s.reg x) (s.reg y) n.toNat px py → t.pixel px py = !s.pixel px py) ∧
      (¬ SpriteLandsOn s (s.reg x) (s.reg y) n.toNat px py → t.pixel px py = s.pixel px py)) ∧
    ((∃ px py, s.pixel px py = true ∧ t.pixel px py = false) → t.reg 0xF#4 = 0x01#8) ∧
    ((∀ px py, s.pixel px py = true → t.pixel px py = true) → t.reg 0xF#4 = 0x00#8) ∧
    t.drawFlag = true ∧ Advances s t ∧
    KeepsRegsBut (· = 0xF#4) s t ∧ KeepsMemory s t ∧ t.i = s.i ∧ KeepsStack s t ∧ KeepsTimers s t ∧ KeepsPorts s t

/-- 45_display.md R151 and 95_test_vectors.md S5: drawing the same sprite twice at the same coordinates restores the frame buffer, and the
second draw reports a collision exactly if the first turned a pixel on. -/
def Obligations.DrawingTwiceRestoresTheScreen : Prop :=
  ∀ (x y : Reg) (n : BitVec 4) (s : State), x ≠ 0xF#4 → y ≠ 0xF#4 →
    ∃ t u, exec (.drwVxVyN x y n) s = .next t ∧ exec (.drwVxVyN x y n) t = .next u ∧
      (∀ px py, u.pixel px py = s.pixel px py) ∧
      (u.reg 0xF#4 = 0x01#8 ↔ ∃ px py, s.pixel px py = false ∧ t.pixel px py = true)

/-! ## Timer and key instructions (46_timer_key.md) -/

/-- 46_timer_key.md R160, the instruction alone. -/
def Obligations.LoadFromDelayTimer : Prop :=
  ∀ (x : Reg) (s : State), ∃ t, exec (.ldVxDt x) s = .next t ∧ t.reg x = s.dt ∧ Advances s t ∧ OnlyPcAndRegs (· = x) s t

/-- 46_timer_key.md R161: the smallest pressed key (92_eei_decisions.md D10), by level (D11); with no key pressed it waits and writes
nothing. -/
def Obligations.LoadKeyWaitsOrTakesTheLowest : Prop :=
  ∀ (x : Reg) (s : State),
    (s.key ≠ 0 → ∃ t, exec (.ldVxK x) s = .next t ∧
      ((t.reg x).toNat < 16 ∧ s.key.getLsbD (t.reg x).toNat = true ∧ ∀ j, j < (t.reg x).toNat → s.key.getLsbD j = false) ∧
      Advances s t ∧ OnlyPcAndRegs (· = x) s t) ∧
    (s.key = 0 → exec (.ldVxK x) s = .next { s with status := .waitingForKey })

/-- 46_timer_key.md R162, R163, the instructions alone. -/
def Obligations.SetTimers : Prop :=
  ∀ (x : Reg) (s : State),
    (∃ t, exec (.ldDtVx x) s = .next t ∧ t.dt = s.reg x ∧ t.st = s.st ∧ Advances s t ∧
      KeepsRegs s t ∧ KeepsMemory s t ∧ t.i = s.i ∧ KeepsStack s t ∧ KeepsDisplay s t ∧ KeepsPorts s t) ∧
    (∃ t, exec (.ldStVx x) s = .next t ∧ t.st = s.reg x ∧ t.dt = s.dt ∧ Advances s t ∧
      KeepsRegs s t ∧ KeepsMemory s t ∧ t.i = s.i ∧ KeepsStack s t ∧ KeepsDisplay s t ∧ KeepsPorts s t)
end

