-- ==== Sys2Proof/Laws/Decode.lean ====
section
/-! SUPPORT. The fields of an encoded word are the operands it was made from, and a word is the number its fields spell. -/

namespace Sys2Proof

/-! ## Fields as numbers -/

theorem fieldG_toNat (w : Word) : (fieldG w).toNat = w.toNat / 0x1000 := by
  have := w.isLt
  simp only [fieldG, BitVec.extractLsb'_toNat, Nat.shiftRight_eq_div_pow]
  omega

theorem fieldX_toNat (w : Word) : (fieldX w).toNat = w.toNat / 0x100 % 0x10 := by
  simp only [fieldX, BitVec.extractLsb'_toNat, Nat.shiftRight_eq_div_pow]

theorem fieldY_toNat (w : Word) : (fieldY w).toNat = w.toNat / 0x10 % 0x10 := by
  simp only [fieldY, BitVec.extractLsb'_toNat, Nat.shiftRight_eq_div_pow]

theorem fieldN_toNat (w : Word) : (fieldN w).toNat = w.toNat % 0x10 := by
  simp [fieldN, BitVec.extractLsb'_toNat]

theorem fieldNN_toNat (w : Word) : (fieldNN w).toNat = w.toNat % 0x100 := by
  simp [fieldNN, BitVec.extractLsb'_toNat]

theorem fieldNNN_toNat (w : Word) : (fieldNNN w).toNat = w.toNat % 0x1000 := by
  simp [fieldNNN, BitVec.extractLsb'_toNat]

/-! ## Encoded words as numbers -/

theorem wordA_toNat (g : Nat) (nnn : BitVec 12) (hg : g < 16) : (wordA g nnn).toNat = g * 0x1000 + nnn.toNat := by
  have := nnn.isLt
  simp only [wordA, BitVec.toNat_ofNat]
  omega

theorem wordXI_toNat (g : Nat) (x : Reg) (nn : Byte) (hg : g < 16) :
    (wordXI g x nn).toNat = g * 0x1000 + x.toNat * 0x100 + nn.toNat := by
  have := x.isLt
  have := nn.isLt
  simp only [wordXI, BitVec.toNat_ofNat]
  omega

theorem wordXYN_toNat (g : Nat) (x y : Reg) (n : BitVec 4) (hg : g < 16) :
    (wordXYN g x y n).toNat = g * 0x1000 + x.toNat * 0x100 + y.toNat * 0x10 + n.toNat := by
  have := x.isLt
  have := y.isLt
  have := n.isLt
  simp only [wordXYN, BitVec.toNat_ofNat]
  omega

/-! ## Fields of encoded words -/

theorem fieldG_wordA (g : Nat) (nnn : BitVec 12) (hg : g < 16) : (fieldG (wordA g nnn)).toNat = g := by
  have := nnn.isLt
  rw [fieldG_toNat, wordA_toNat _ _ hg]
  omega

theorem fieldNNN_wordA (g : Nat) (nnn : BitVec 12) (hg : g < 16) : fieldNNN (wordA g nnn) = nnn := by
  have := nnn.isLt
  refine BitVec.eq_of_toNat_eq ?_
  rw [fieldNNN_toNat, wordA_toNat _ _ hg]
  omega

theorem fieldG_wordXI (g : Nat) (x : Reg) (nn : Byte) (hg : g < 16) : (fieldG (wordXI g x nn)).toNat = g := by
  have := x.isLt
  have := nn.isLt
  rw [fieldG_toNat, wordXI_toNat _ _ _ hg]
  omega

theorem fieldX_wordXI (g : Nat) (x : Reg) (nn : Byte) (hg : g < 16) : fieldX (wordXI g x nn) = x := by
  have := x.isLt
  have := nn.isLt
  refine BitVec.eq_of_toNat_eq ?_
  rw [fieldX_toNat, wordXI_toNat _ _ _ hg]
  omega

theorem fieldNN_wordXI (g : Nat) (x : Reg) (nn : Byte) (hg : g < 16) : fieldNN (wordXI g x nn) = nn := by
  have := x.isLt
  have := nn.isLt
  refine BitVec.eq_of_toNat_eq ?_
  rw [fieldNN_toNat, wordXI_toNat _ _ _ hg]
  omega

theorem fieldG_wordXYN (g : Nat) (x y : Reg) (n : BitVec 4) (hg : g < 16) : (fieldG (wordXYN g x y n)).toNat = g := by
  have := x.isLt
  have := y.isLt
  have := n.isLt
  rw [fieldG_toNat, wordXYN_toNat _ _ _ _ hg]
  omega

theorem fieldX_wordXYN (g : Nat) (x y : Reg) (n : BitVec 4) (hg : g < 16) : fieldX (wordXYN g x y n) = x := by
  have := x.isLt
  have := y.isLt
  have := n.isLt
  refine BitVec.eq_of_toNat_eq ?_
  rw [fieldX_toNat, wordXYN_toNat _ _ _ _ hg]
  omega

theorem fieldY_wordXYN (g : Nat) (x y : Reg) (n : BitVec 4) (hg : g < 16) : fieldY (wordXYN g x y n) = y := by
  have := x.isLt
  have := y.isLt
  have := n.isLt
  refine BitVec.eq_of_toNat_eq ?_
  rw [fieldY_toNat, wordXYN_toNat _ _ _ _ hg]
  omega

theorem fieldN_wordXYN (g : Nat) (x y : Reg) (n : BitVec 4) (hg : g < 16) : fieldN (wordXYN g x y n) = n := by
  have := x.isLt
  have := y.isLt
  have := n.isLt
  refine BitVec.eq_of_toNat_eq ?_
  rw [fieldN_toNat, wordXYN_toNat _ _ _ _ hg]
  omega

/-! ## A word is what its fields spell -/

theorem wordA_fields (w : Word) : wordA (fieldG w).toNat (fieldNNN w) = w := by
  have := w.isLt
  refine BitVec.eq_of_toNat_eq ?_
  rw [wordA_toNat _ _ (fieldG w).isLt, fieldG_toNat, fieldNNN_toNat]
  omega

theorem wordXI_fields (w : Word) : wordXI (fieldG w).toNat (fieldX w) (fieldNN w) = w := by
  have := w.isLt
  refine BitVec.eq_of_toNat_eq ?_
  rw [wordXI_toNat _ _ _ (fieldG w).isLt, fieldG_toNat, fieldX_toNat, fieldNN_toNat]
  omega

theorem wordXYN_fields (w : Word) : wordXYN (fieldG w).toNat (fieldX w) (fieldY w) (fieldN w) = w := by
  have := w.isLt
  refine BitVec.eq_of_toNat_eq ?_
  rw [wordXYN_toNat _ _ _ _ (fieldG w).isLt, fieldG_toNat, fieldX_toNat, fieldY_toNat, fieldN_toNat]
  omega

/-! ## The table's masks select the fields -/

/-- The mask F000 keeps `G`. -/
theorem and_F000 (w : Word) : (w &&& 0xF000#16).toNat = (fieldG w).toNat * 0x1000 := by
  have h : w &&& 0xF000#16 = (fieldG w).setWidth 16 <<< 12 := by
    refine BitVec.eq_of_getLsbD_eq fun k hk => ?_
    interval_cases k <;> simp [fieldG]
  have := (fieldG w).isLt
  rw [h, BitVec.toNat_shiftLeft, BitVec.toNat_setWidth, Nat.shiftLeft_eq]
  omega

/-- A nibble in the top position and a low field of at most 12 bits, as a number and as bits. -/
theorem topNibble_or (g : BitVec 4) {m : Nat} (b : BitVec m) (hm : b.toNat < 2 ^ 12) :
    g.setWidth 16 <<< 12 ||| b.setWidth 16 = BitVec.ofNat 16 (g.toNat * 0x1000 + b.toNat) := by
  have hg := g.isLt
  refine BitVec.eq_of_toNat_eq ?_
  simp only [BitVec.toNat_or, BitVec.toNat_shiftLeft, BitVec.toNat_setWidth, BitVec.toNat_ofNat]
  rw [Nat.mod_eq_of_lt (show g.toNat < 2 ^ 16 by omega), Nat.mod_eq_of_lt (show b.toNat < 2 ^ 16 by omega),
    Nat.mod_eq_of_lt (show g.toNat <<< 12 < 2 ^ 16 by rw [Nat.shiftLeft_eq]; omega), ← Nat.shiftLeft_add_eq_or_of_lt hm,
    Nat.shiftLeft_eq]
  omega

/-- The mask F00F keeps `G` and `N`. -/
theorem and_F00F (w : Word) : (w &&& 0xF00F#16).toNat = (fieldG w).toNat * 0x1000 + (fieldN w).toNat := by
  have hg := (fieldG w).isLt
  have hn := (fieldN w).isLt
  have h : w &&& 0xF00F#16 = (fieldG w).setWidth 16 <<< 12 ||| (fieldN w).setWidth 16 := by
    refine BitVec.eq_of_getLsbD_eq fun k hk => ?_
    interval_cases k <;> simp [fieldG, fieldN]
  rw [h, topNibble_or _ _ (by omega), BitVec.toNat_ofNat]
  omega

/-- The mask F0FF keeps `G` and `NN`. -/
theorem and_F0FF (w : Word) : (w &&& 0xF0FF#16).toNat = (fieldG w).toNat * 0x1000 + (fieldNN w).toNat := by
  have hg := (fieldG w).isLt
  have hn := (fieldNN w).isLt
  have h : w &&& 0xF0FF#16 = (fieldG w).setWidth 16 <<< 12 ||| (fieldNN w).setWidth 16 := by
    refine BitVec.eq_of_getLsbD_eq fun k hk => ?_
    interval_cases k <;> simp [fieldG, fieldNN]
  rw [h, topNibble_or _ _ (by omega), BitVec.toNat_ofNat]
  omega

end Sys2Proof
end

