-- ==== Sys2Proof/Laws/State.lean ====
section
/-! SUPPORT. One lemma per field per update of the state, each true by rfl, so that no later proof unfolds a record update.
A field an update writes has its new value on the right side. -/

namespace Sys2Proof.Machine

/-! ## setReg -/

@[simp] theorem State.setReg_mem (s : State) (x : Reg) (b : Byte) : (s.setReg x b).mem = s.mem := rfl
@[simp] theorem State.setReg_v (s : State) (x : Reg) (b : Byte) : (s.setReg x b).v = s.v.set x.toNat b x.isLt := rfl
@[simp] theorem State.setReg_i (s : State) (x : Reg) (b : Byte) : (s.setReg x b).i = s.i := rfl
@[simp] theorem State.setReg_pc (s : State) (x : Reg) (b : Byte) : (s.setReg x b).pc = s.pc := rfl
@[simp] theorem State.setReg_stack (s : State) (x : Reg) (b : Byte) : (s.setReg x b).stack = s.stack := rfl
@[simp] theorem State.setReg_sp (s : State) (x : Reg) (b : Byte) : (s.setReg x b).sp = s.sp := rfl
@[simp] theorem State.setReg_dt (s : State) (x : Reg) (b : Byte) : (s.setReg x b).dt = s.dt := rfl
@[simp] theorem State.setReg_st (s : State) (x : Reg) (b : Byte) : (s.setReg x b).st = s.st := rfl
@[simp] theorem State.setReg_gfx (s : State) (x : Reg) (b : Byte) : (s.setReg x b).gfx = s.gfx := rfl
@[simp] theorem State.setReg_drawFlag (s : State) (x : Reg) (b : Byte) : (s.setReg x b).drawFlag = s.drawFlag := rfl
@[simp] theorem State.setReg_key (s : State) (x : Reg) (b : Byte) : (s.setReg x b).key = s.key := rfl
@[simp] theorem State.setReg_rnd (s : State) (x : Reg) (b : Byte) : (s.setReg x b).rnd = s.rnd := rfl
@[simp] theorem State.setReg_status (s : State) (x : Reg) (b : Byte) : (s.setReg x b).status = s.status := rfl
@[simp] theorem State.setReg_soundTriggered (s : State) (x : Reg) (b : Byte) : (s.setReg x b).soundTriggered = s.soundTriggered := rfl
@[simp] theorem State.setReg_inputs (s : State) (x : Reg) (b : Byte) : (s.setReg x b).inputs = s.inputs := rfl
@[simp] theorem State.setReg_steps (s : State) (x : Reg) (b : Byte) : (s.setReg x b).steps = s.steps := rfl
@[simp] theorem State.setReg_boot (s : State) (x : Reg) (b : Byte) : (s.setReg x b).boot = s.boot := rfl
@[simp] theorem State.setReg_memRead (s : State) (x : Reg) (b : Byte) (k : Nat) : (s.setReg x b).memRead k = s.memRead k := rfl
@[simp] theorem State.setReg_pixel (s : State) (x : Reg) (b : Byte) (px : Fin 64) (py : Fin 32) : (s.setReg x b).pixel px py = s.pixel px py := rfl

/-! ## setFlag -/

@[simp] theorem State.setFlag_mem (s : State) (f : Bool) : (s.setFlag f).mem = s.mem := rfl
@[simp] theorem State.setFlag_v (s : State) (f : Bool) : (s.setFlag f).v = s.v.set vf.toNat (flagByte f) vf.isLt := rfl
@[simp] theorem State.setFlag_i (s : State) (f : Bool) : (s.setFlag f).i = s.i := rfl
@[simp] theorem State.setFlag_pc (s : State) (f : Bool) : (s.setFlag f).pc = s.pc := rfl
@[simp] theorem State.setFlag_stack (s : State) (f : Bool) : (s.setFlag f).stack = s.stack := rfl
@[simp] theorem State.setFlag_sp (s : State) (f : Bool) : (s.setFlag f).sp = s.sp := rfl
@[simp] theorem State.setFlag_dt (s : State) (f : Bool) : (s.setFlag f).dt = s.dt := rfl
@[simp] theorem State.setFlag_st (s : State) (f : Bool) : (s.setFlag f).st = s.st := rfl
@[simp] theorem State.setFlag_gfx (s : State) (f : Bool) : (s.setFlag f).gfx = s.gfx := rfl
@[simp] theorem State.setFlag_drawFlag (s : State) (f : Bool) : (s.setFlag f).drawFlag = s.drawFlag := rfl
@[simp] theorem State.setFlag_key (s : State) (f : Bool) : (s.setFlag f).key = s.key := rfl
@[simp] theorem State.setFlag_rnd (s : State) (f : Bool) : (s.setFlag f).rnd = s.rnd := rfl
@[simp] theorem State.setFlag_status (s : State) (f : Bool) : (s.setFlag f).status = s.status := rfl
@[simp] theorem State.setFlag_soundTriggered (s : State) (f : Bool) : (s.setFlag f).soundTriggered = s.soundTriggered := rfl
@[simp] theorem State.setFlag_inputs (s : State) (f : Bool) : (s.setFlag f).inputs = s.inputs := rfl
@[simp] theorem State.setFlag_steps (s : State) (f : Bool) : (s.setFlag f).steps = s.steps := rfl
@[simp] theorem State.setFlag_boot (s : State) (f : Bool) : (s.setFlag f).boot = s.boot := rfl
@[simp] theorem State.setFlag_memRead (s : State) (f : Bool) (k : Nat) : (s.setFlag f).memRead k = s.memRead k := rfl
@[simp] theorem State.setFlag_pixel (s : State) (f : Bool) (px : Fin 64) (py : Fin 32) : (s.setFlag f).pixel px py = s.pixel px py := rfl

/-! ## setI -/

@[simp] theorem State.setI_mem (s : State) (w : Word) : (s.setI w).mem = s.mem := rfl
@[simp] theorem State.setI_v (s : State) (w : Word) : (s.setI w).v = s.v := rfl
@[simp] theorem State.setI_i (s : State) (w : Word) : (s.setI w).i = w := rfl
@[simp] theorem State.setI_pc (s : State) (w : Word) : (s.setI w).pc = s.pc := rfl
@[simp] theorem State.setI_stack (s : State) (w : Word) : (s.setI w).stack = s.stack := rfl
@[simp] theorem State.setI_sp (s : State) (w : Word) : (s.setI w).sp = s.sp := rfl
@[simp] theorem State.setI_dt (s : State) (w : Word) : (s.setI w).dt = s.dt := rfl
@[simp] theorem State.setI_st (s : State) (w : Word) : (s.setI w).st = s.st := rfl
@[simp] theorem State.setI_gfx (s : State) (w : Word) : (s.setI w).gfx = s.gfx := rfl
@[simp] theorem State.setI_drawFlag (s : State) (w : Word) : (s.setI w).drawFlag = s.drawFlag := rfl
@[simp] theorem State.setI_key (s : State) (w : Word) : (s.setI w).key = s.key := rfl
@[simp] theorem State.setI_rnd (s : State) (w : Word) : (s.setI w).rnd = s.rnd := rfl
@[simp] theorem State.setI_status (s : State) (w : Word) : (s.setI w).status = s.status := rfl
@[simp] theorem State.setI_soundTriggered (s : State) (w : Word) : (s.setI w).soundTriggered = s.soundTriggered := rfl
@[simp] theorem State.setI_inputs (s : State) (w : Word) : (s.setI w).inputs = s.inputs := rfl
@[simp] theorem State.setI_steps (s : State) (w : Word) : (s.setI w).steps = s.steps := rfl
@[simp] theorem State.setI_boot (s : State) (w : Word) : (s.setI w).boot = s.boot := rfl
@[simp] theorem State.setI_reg (s : State) (w : Word) (r : Reg) : (s.setI w).reg r = s.reg r := rfl
@[simp] theorem State.setI_memRead (s : State) (w : Word) (k : Nat) : (s.setI w).memRead k = s.memRead k := rfl
@[simp] theorem State.setI_pixel (s : State) (w : Word) (px : Fin 64) (py : Fin 32) : (s.setI w).pixel px py = s.pixel px py := rfl

/-! ## setDt -/

@[simp] theorem State.setDt_mem (s : State) (b : Byte) : (s.setDt b).mem = s.mem := rfl
@[simp] theorem State.setDt_v (s : State) (b : Byte) : (s.setDt b).v = s.v := rfl
@[simp] theorem State.setDt_i (s : State) (b : Byte) : (s.setDt b).i = s.i := rfl
@[simp] theorem State.setDt_pc (s : State) (b : Byte) : (s.setDt b).pc = s.pc := rfl
@[simp] theorem State.setDt_stack (s : State) (b : Byte) : (s.setDt b).stack = s.stack := rfl
@[simp] theorem State.setDt_sp (s : State) (b : Byte) : (s.setDt b).sp = s.sp := rfl
@[simp] theorem State.setDt_dt (s : State) (b : Byte) : (s.setDt b).dt = b := rfl
@[simp] theorem State.setDt_st (s : State) (b : Byte) : (s.setDt b).st = s.st := rfl
@[simp] theorem State.setDt_gfx (s : State) (b : Byte) : (s.setDt b).gfx = s.gfx := rfl
@[simp] theorem State.setDt_drawFlag (s : State) (b : Byte) : (s.setDt b).drawFlag = s.drawFlag := rfl
@[simp] theorem State.setDt_key (s : State) (b : Byte) : (s.setDt b).key = s.key := rfl
@[simp] theorem State.setDt_rnd (s : State) (b : Byte) : (s.setDt b).rnd = s.rnd := rfl
@[simp] theorem State.setDt_status (s : State) (b : Byte) : (s.setDt b).status = s.status := rfl
@[simp] theorem State.setDt_soundTriggered (s : State) (b : Byte) : (s.setDt b).soundTriggered = s.soundTriggered := rfl
@[simp] theorem State.setDt_inputs (s : State) (b : Byte) : (s.setDt b).inputs = s.inputs := rfl
@[simp] theorem State.setDt_steps (s : State) (b : Byte) : (s.setDt b).steps = s.steps := rfl
@[simp] theorem State.setDt_boot (s : State) (b : Byte) : (s.setDt b).boot = s.boot := rfl
@[simp] theorem State.setDt_reg (s : State) (b : Byte) (r : Reg) : (s.setDt b).reg r = s.reg r := rfl
@[simp] theorem State.setDt_memRead (s : State) (b : Byte) (k : Nat) : (s.setDt b).memRead k = s.memRead k := rfl
@[simp] theorem State.setDt_pixel (s : State) (b : Byte) (px : Fin 64) (py : Fin 32) : (s.setDt b).pixel px py = s.pixel px py := rfl

/-! ## setSt -/

@[simp] theorem State.setSt_mem (s : State) (b : Byte) : (s.setSt b).mem = s.mem := rfl
@[simp] theorem State.setSt_v (s : State) (b : Byte) : (s.setSt b).v = s.v := rfl
@[simp] theorem State.setSt_i (s : State) (b : Byte) : (s.setSt b).i = s.i := rfl
@[simp] theorem State.setSt_pc (s : State) (b : Byte) : (s.setSt b).pc = s.pc := rfl
@[simp] theorem State.setSt_stack (s : State) (b : Byte) : (s.setSt b).stack = s.stack := rfl
@[simp] theorem State.setSt_sp (s : State) (b : Byte) : (s.setSt b).sp = s.sp := rfl
@[simp] theorem State.setSt_dt (s : State) (b : Byte) : (s.setSt b).dt = s.dt := rfl
@[simp] theorem State.setSt_st (s : State) (b : Byte) : (s.setSt b).st = b := rfl
@[simp] theorem State.setSt_gfx (s : State) (b : Byte) : (s.setSt b).gfx = s.gfx := rfl
@[simp] theorem State.setSt_drawFlag (s : State) (b : Byte) : (s.setSt b).drawFlag = s.drawFlag := rfl
@[simp] theorem State.setSt_key (s : State) (b : Byte) : (s.setSt b).key = s.key := rfl
@[simp] theorem State.setSt_rnd (s : State) (b : Byte) : (s.setSt b).rnd = s.rnd := rfl
@[simp] theorem State.setSt_status (s : State) (b : Byte) : (s.setSt b).status = s.status := rfl
@[simp] theorem State.setSt_soundTriggered (s : State) (b : Byte) : (s.setSt b).soundTriggered = s.soundTriggered := rfl
@[simp] theorem State.setSt_inputs (s : State) (b : Byte) : (s.setSt b).inputs = s.inputs := rfl
@[simp] theorem State.setSt_steps (s : State) (b : Byte) : (s.setSt b).steps = s.steps := rfl
@[simp] theorem State.setSt_boot (s : State) (b : Byte) : (s.setSt b).boot = s.boot := rfl
@[simp] theorem State.setSt_reg (s : State) (b : Byte) (r : Reg) : (s.setSt b).reg r = s.reg r := rfl
@[simp] theorem State.setSt_memRead (s : State) (b : Byte) (k : Nat) : (s.setSt b).memRead k = s.memRead k := rfl
@[simp] theorem State.setSt_pixel (s : State) (b : Byte) (px : Fin 64) (py : Fin 32) : (s.setSt b).pixel px py = s.pixel px py := rfl

/-! ## storeBytes -/

@[simp] theorem State.storeBytes_mem (s : State) (a : Nat) (bs : List Byte) : (s.storeBytes a bs).mem = s.mem.writeBytes a bs := rfl
@[simp] theorem State.storeBytes_v (s : State) (a : Nat) (bs : List Byte) : (s.storeBytes a bs).v = s.v := rfl
@[simp] theorem State.storeBytes_i (s : State) (a : Nat) (bs : List Byte) : (s.storeBytes a bs).i = s.i := rfl
@[simp] theorem State.storeBytes_pc (s : State) (a : Nat) (bs : List Byte) : (s.storeBytes a bs).pc = s.pc := rfl
@[simp] theorem State.storeBytes_stack (s : State) (a : Nat) (bs : List Byte) : (s.storeBytes a bs).stack = s.stack := rfl
@[simp] theorem State.storeBytes_sp (s : State) (a : Nat) (bs : List Byte) : (s.storeBytes a bs).sp = s.sp := rfl
@[simp] theorem State.storeBytes_dt (s : State) (a : Nat) (bs : List Byte) : (s.storeBytes a bs).dt = s.dt := rfl
@[simp] theorem State.storeBytes_st (s : State) (a : Nat) (bs : List Byte) : (s.storeBytes a bs).st = s.st := rfl
@[simp] theorem State.storeBytes_gfx (s : State) (a : Nat) (bs : List Byte) : (s.storeBytes a bs).gfx = s.gfx := rfl
@[simp] theorem State.storeBytes_drawFlag (s : State) (a : Nat) (bs : List Byte) : (s.storeBytes a bs).drawFlag = s.drawFlag := rfl
@[simp] theorem State.storeBytes_key (s : State) (a : Nat) (bs : List Byte) : (s.storeBytes a bs).key = s.key := rfl
@[simp] theorem State.storeBytes_rnd (s : State) (a : Nat) (bs : List Byte) : (s.storeBytes a bs).rnd = s.rnd := rfl
@[simp] theorem State.storeBytes_status (s : State) (a : Nat) (bs : List Byte) : (s.storeBytes a bs).status = s.status := rfl
@[simp] theorem State.storeBytes_soundTriggered (s : State) (a : Nat) (bs : List Byte) : (s.storeBytes a bs).soundTriggered = s.soundTriggered := rfl
@[simp] theorem State.storeBytes_inputs (s : State) (a : Nat) (bs : List Byte) : (s.storeBytes a bs).inputs = s.inputs := rfl
@[simp] theorem State.storeBytes_steps (s : State) (a : Nat) (bs : List Byte) : (s.storeBytes a bs).steps = s.steps := rfl
@[simp] theorem State.storeBytes_boot (s : State) (a : Nat) (bs : List Byte) : (s.storeBytes a bs).boot = s.boot := rfl
@[simp] theorem State.storeBytes_reg (s : State) (a : Nat) (bs : List Byte) (r : Reg) : (s.storeBytes a bs).reg r = s.reg r := rfl
@[simp] theorem State.storeBytes_pixel (s : State) (a : Nat) (bs : List Byte) (px : Fin 64) (py : Fin 32) : (s.storeBytes a bs).pixel px py = s.pixel px py := rfl

/-! ## loadRegs -/

@[simp] theorem State.loadRegs_mem (s : State) (a n : Nat) : (s.loadRegs a n).mem = s.mem := rfl
@[simp] theorem State.loadRegs_i (s : State) (a n : Nat) : (s.loadRegs a n).i = s.i := rfl
@[simp] theorem State.loadRegs_pc (s : State) (a n : Nat) : (s.loadRegs a n).pc = s.pc := rfl
@[simp] theorem State.loadRegs_stack (s : State) (a n : Nat) : (s.loadRegs a n).stack = s.stack := rfl
@[simp] theorem State.loadRegs_sp (s : State) (a n : Nat) : (s.loadRegs a n).sp = s.sp := rfl
@[simp] theorem State.loadRegs_dt (s : State) (a n : Nat) : (s.loadRegs a n).dt = s.dt := rfl
@[simp] theorem State.loadRegs_st (s : State) (a n : Nat) : (s.loadRegs a n).st = s.st := rfl
@[simp] theorem State.loadRegs_gfx (s : State) (a n : Nat) : (s.loadRegs a n).gfx = s.gfx := rfl
@[simp] theorem State.loadRegs_drawFlag (s : State) (a n : Nat) : (s.loadRegs a n).drawFlag = s.drawFlag := rfl
@[simp] theorem State.loadRegs_key (s : State) (a n : Nat) : (s.loadRegs a n).key = s.key := rfl
@[simp] theorem State.loadRegs_rnd (s : State) (a n : Nat) : (s.loadRegs a n).rnd = s.rnd := rfl
@[simp] theorem State.loadRegs_status (s : State) (a n : Nat) : (s.loadRegs a n).status = s.status := rfl
@[simp] theorem State.loadRegs_soundTriggered (s : State) (a n : Nat) : (s.loadRegs a n).soundTriggered = s.soundTriggered := rfl
@[simp] theorem State.loadRegs_inputs (s : State) (a n : Nat) : (s.loadRegs a n).inputs = s.inputs := rfl
@[simp] theorem State.loadRegs_steps (s : State) (a n : Nat) : (s.loadRegs a n).steps = s.steps := rfl
@[simp] theorem State.loadRegs_boot (s : State) (a n : Nat) : (s.loadRegs a n).boot = s.boot := rfl
@[simp] theorem State.loadRegs_memRead (s : State) (a n : Nat) (k : Nat) : (s.loadRegs a n).memRead k = s.memRead k := rfl
@[simp] theorem State.loadRegs_pixel (s : State) (a n : Nat) (px : Fin 64) (py : Fin 32) : (s.loadRegs a n).pixel px py = s.pixel px py := rfl

/-! ## pushPc -/

@[simp] theorem State.pushPc_mem (s : State) : (s.pushPc).mem = s.mem := rfl
@[simp] theorem State.pushPc_v (s : State) : (s.pushPc).v = s.v := rfl
@[simp] theorem State.pushPc_i (s : State) : (s.pushPc).i = s.i := rfl
@[simp] theorem State.pushPc_pc (s : State) : (s.pushPc).pc = s.pc := rfl
@[simp] theorem State.pushPc_stack (s : State) : (s.pushPc).stack = s.stack.set (stackIndex s.sp).val s.pc (stackIndex s.sp).isLt := rfl
@[simp] theorem State.pushPc_sp (s : State) : (s.pushPc).sp = s.sp + 1 := rfl
@[simp] theorem State.pushPc_dt (s : State) : (s.pushPc).dt = s.dt := rfl
@[simp] theorem State.pushPc_st (s : State) : (s.pushPc).st = s.st := rfl
@[simp] theorem State.pushPc_gfx (s : State) : (s.pushPc).gfx = s.gfx := rfl
@[simp] theorem State.pushPc_drawFlag (s : State) : (s.pushPc).drawFlag = s.drawFlag := rfl
@[simp] theorem State.pushPc_key (s : State) : (s.pushPc).key = s.key := rfl
@[simp] theorem State.pushPc_rnd (s : State) : (s.pushPc).rnd = s.rnd := rfl
@[simp] theorem State.pushPc_status (s : State) : (s.pushPc).status = s.status := rfl
@[simp] theorem State.pushPc_soundTriggered (s : State) : (s.pushPc).soundTriggered = s.soundTriggered := rfl
@[simp] theorem State.pushPc_inputs (s : State) : (s.pushPc).inputs = s.inputs := rfl
@[simp] theorem State.pushPc_steps (s : State) : (s.pushPc).steps = s.steps := rfl
@[simp] theorem State.pushPc_boot (s : State) : (s.pushPc).boot = s.boot := rfl
@[simp] theorem State.pushPc_reg (s : State) (r : Reg) : (s.pushPc).reg r = s.reg r := rfl
@[simp] theorem State.pushPc_memRead (s : State) (k : Nat) : (s.pushPc).memRead k = s.memRead k := rfl
@[simp] theorem State.pushPc_pixel (s : State) (px : Fin 64) (py : Fin 32) : (s.pushPc).pixel px py = s.pixel px py := rfl

/-! ## popSp -/

@[simp] theorem State.popSp_mem (s : State) : (s.popSp).mem = s.mem := rfl
@[simp] theorem State.popSp_v (s : State) : (s.popSp).v = s.v := rfl
@[simp] theorem State.popSp_i (s : State) : (s.popSp).i = s.i := rfl
@[simp] theorem State.popSp_pc (s : State) : (s.popSp).pc = s.pc := rfl
@[simp] theorem State.popSp_stack (s : State) : (s.popSp).stack = s.stack := rfl
@[simp] theorem State.popSp_sp (s : State) : (s.popSp).sp = s.sp - 1 := rfl
@[simp] theorem State.popSp_dt (s : State) : (s.popSp).dt = s.dt := rfl
@[simp] theorem State.popSp_st (s : State) : (s.popSp).st = s.st := rfl
@[simp] theorem State.popSp_gfx (s : State) : (s.popSp).gfx = s.gfx := rfl
@[simp] theorem State.popSp_drawFlag (s : State) : (s.popSp).drawFlag = s.drawFlag := rfl
@[simp] theorem State.popSp_key (s : State) : (s.popSp).key = s.key := rfl
@[simp] theorem State.popSp_rnd (s : State) : (s.popSp).rnd = s.rnd := rfl
@[simp] theorem State.popSp_status (s : State) : (s.popSp).status = s.status := rfl
@[simp] theorem State.popSp_soundTriggered (s : State) : (s.popSp).soundTriggered = s.soundTriggered := rfl
@[simp] theorem State.popSp_inputs (s : State) : (s.popSp).inputs = s.inputs := rfl
@[simp] theorem State.popSp_steps (s : State) : (s.popSp).steps = s.steps := rfl
@[simp] theorem State.popSp_boot (s : State) : (s.popSp).boot = s.boot := rfl
@[simp] theorem State.popSp_reg (s : State) (r : Reg) : (s.popSp).reg r = s.reg r := rfl
@[simp] theorem State.popSp_memRead (s : State) (k : Nat) : (s.popSp).memRead k = s.memRead k := rfl
@[simp] theorem State.popSp_pixel (s : State) (px : Fin 64) (py : Fin 32) : (s.popSp).pixel px py = s.pixel px py := rfl

/-! ## completed -/

@[simp] theorem State.completed_mem (s : State) (w : Word) : (s.completed w).mem = s.mem := rfl
@[simp] theorem State.completed_v (s : State) (w : Word) : (s.completed w).v = s.v := rfl
@[simp] theorem State.completed_i (s : State) (w : Word) : (s.completed w).i = s.i := rfl
@[simp] theorem State.completed_pc (s : State) (w : Word) : (s.completed w).pc = w := rfl
@[simp] theorem State.completed_stack (s : State) (w : Word) : (s.completed w).stack = s.stack := rfl
@[simp] theorem State.completed_sp (s : State) (w : Word) : (s.completed w).sp = s.sp := rfl
@[simp] theorem State.completed_dt (s : State) (w : Word) : (s.completed w).dt = s.dt := rfl
@[simp] theorem State.completed_st (s : State) (w : Word) : (s.completed w).st = s.st := rfl
@[simp] theorem State.completed_gfx (s : State) (w : Word) : (s.completed w).gfx = s.gfx := rfl
@[simp] theorem State.completed_drawFlag (s : State) (w : Word) : (s.completed w).drawFlag = s.drawFlag := rfl
@[simp] theorem State.completed_key (s : State) (w : Word) : (s.completed w).key = s.key := rfl
@[simp] theorem State.completed_rnd (s : State) (w : Word) : (s.completed w).rnd = s.rnd := rfl
@[simp] theorem State.completed_status (s : State) (w : Word) : (s.completed w).status = .running := rfl
@[simp] theorem State.completed_soundTriggered (s : State) (w : Word) : (s.completed w).soundTriggered = s.soundTriggered := rfl
@[simp] theorem State.completed_inputs (s : State) (w : Word) : (s.completed w).inputs = s.inputs := rfl
@[simp] theorem State.completed_steps (s : State) (w : Word) : (s.completed w).steps = s.steps := rfl
@[simp] theorem State.completed_boot (s : State) (w : Word) : (s.completed w).boot = s.boot := rfl
@[simp] theorem State.completed_reg (s : State) (w : Word) (r : Reg) : (s.completed w).reg r = s.reg r := rfl
@[simp] theorem State.completed_memRead (s : State) (w : Word) (k : Nat) : (s.completed w).memRead k = s.memRead k := rfl
@[simp] theorem State.completed_pixel (s : State) (w : Word) (px : Fin 64) (py : Fin 32) : (s.completed w).pixel px py = s.pixel px py := rfl

/-! ## advanced -/

@[simp] theorem State.advanced_mem (s : State) : (s.advanced).mem = s.mem := rfl
@[simp] theorem State.advanced_v (s : State) : (s.advanced).v = s.v := rfl
@[simp] theorem State.advanced_i (s : State) : (s.advanced).i = s.i := rfl
@[simp] theorem State.advanced_pc (s : State) : (s.advanced).pc = s.pc + 2 := rfl
@[simp] theorem State.advanced_stack (s : State) : (s.advanced).stack = s.stack := rfl
@[simp] theorem State.advanced_sp (s : State) : (s.advanced).sp = s.sp := rfl
@[simp] theorem State.advanced_dt (s : State) : (s.advanced).dt = s.dt := rfl
@[simp] theorem State.advanced_st (s : State) : (s.advanced).st = s.st := rfl
@[simp] theorem State.advanced_gfx (s : State) : (s.advanced).gfx = s.gfx := rfl
@[simp] theorem State.advanced_drawFlag (s : State) : (s.advanced).drawFlag = s.drawFlag := rfl
@[simp] theorem State.advanced_key (s : State) : (s.advanced).key = s.key := rfl
@[simp] theorem State.advanced_rnd (s : State) : (s.advanced).rnd = s.rnd := rfl
@[simp] theorem State.advanced_status (s : State) : (s.advanced).status = .running := rfl
@[simp] theorem State.advanced_soundTriggered (s : State) : (s.advanced).soundTriggered = s.soundTriggered := rfl
@[simp] theorem State.advanced_inputs (s : State) : (s.advanced).inputs = s.inputs := rfl
@[simp] theorem State.advanced_steps (s : State) : (s.advanced).steps = s.steps := rfl
@[simp] theorem State.advanced_boot (s : State) : (s.advanced).boot = s.boot := rfl
@[simp] theorem State.advanced_reg (s : State) (r : Reg) : (s.advanced).reg r = s.reg r := rfl
@[simp] theorem State.advanced_memRead (s : State) (k : Nat) : (s.advanced).memRead k = s.memRead k := rfl
@[simp] theorem State.advanced_pixel (s : State) (px : Fin 64) (py : Fin 32) : (s.advanced).pixel px py = s.pixel px py := rfl

/-! ## skippedIf -/

@[simp] theorem State.skippedIf_mem (s : State) (c : Bool) : (s.skippedIf c).mem = s.mem := rfl
@[simp] theorem State.skippedIf_v (s : State) (c : Bool) : (s.skippedIf c).v = s.v := rfl
@[simp] theorem State.skippedIf_i (s : State) (c : Bool) : (s.skippedIf c).i = s.i := rfl
@[simp] theorem State.skippedIf_pc (s : State) (c : Bool) : (s.skippedIf c).pc = if c then s.pc + 4 else s.pc + 2 := rfl
@[simp] theorem State.skippedIf_stack (s : State) (c : Bool) : (s.skippedIf c).stack = s.stack := rfl
@[simp] theorem State.skippedIf_sp (s : State) (c : Bool) : (s.skippedIf c).sp = s.sp := rfl
@[simp] theorem State.skippedIf_dt (s : State) (c : Bool) : (s.skippedIf c).dt = s.dt := rfl
@[simp] theorem State.skippedIf_st (s : State) (c : Bool) : (s.skippedIf c).st = s.st := rfl
@[simp] theorem State.skippedIf_gfx (s : State) (c : Bool) : (s.skippedIf c).gfx = s.gfx := rfl
@[simp] theorem State.skippedIf_drawFlag (s : State) (c : Bool) : (s.skippedIf c).drawFlag = s.drawFlag := rfl
@[simp] theorem State.skippedIf_key (s : State) (c : Bool) : (s.skippedIf c).key = s.key := rfl
@[simp] theorem State.skippedIf_rnd (s : State) (c : Bool) : (s.skippedIf c).rnd = s.rnd := rfl
@[simp] theorem State.skippedIf_status (s : State) (c : Bool) : (s.skippedIf c).status = .running := rfl
@[simp] theorem State.skippedIf_soundTriggered (s : State) (c : Bool) : (s.skippedIf c).soundTriggered = s.soundTriggered := rfl
@[simp] theorem State.skippedIf_inputs (s : State) (c : Bool) : (s.skippedIf c).inputs = s.inputs := rfl
@[simp] theorem State.skippedIf_steps (s : State) (c : Bool) : (s.skippedIf c).steps = s.steps := rfl
@[simp] theorem State.skippedIf_boot (s : State) (c : Bool) : (s.skippedIf c).boot = s.boot := rfl
@[simp] theorem State.skippedIf_reg (s : State) (c : Bool) (r : Reg) : (s.skippedIf c).reg r = s.reg r := rfl
@[simp] theorem State.skippedIf_memRead (s : State) (c : Bool) (k : Nat) : (s.skippedIf c).memRead k = s.memRead k := rfl
@[simp] theorem State.skippedIf_pixel (s : State) (c : Bool) (px : Fin 64) (py : Fin 32) : (s.skippedIf c).pixel px py = s.pixel px py := rfl

/-! ## raised -/

@[simp] theorem State.raised_mem (s : State) (e : Status) : (s.raised e).mem = s.mem := rfl
@[simp] theorem State.raised_v (s : State) (e : Status) : (s.raised e).v = s.v := rfl
@[simp] theorem State.raised_i (s : State) (e : Status) : (s.raised e).i = s.i := rfl
@[simp] theorem State.raised_pc (s : State) (e : Status) : (s.raised e).pc = s.pc := rfl
@[simp] theorem State.raised_stack (s : State) (e : Status) : (s.raised e).stack = s.stack := rfl
@[simp] theorem State.raised_sp (s : State) (e : Status) : (s.raised e).sp = s.sp := rfl
@[simp] theorem State.raised_dt (s : State) (e : Status) : (s.raised e).dt = s.dt := rfl
@[simp] theorem State.raised_st (s : State) (e : Status) : (s.raised e).st = s.st := rfl
@[simp] theorem State.raised_gfx (s : State) (e : Status) : (s.raised e).gfx = s.gfx := rfl
@[simp] theorem State.raised_drawFlag (s : State) (e : Status) : (s.raised e).drawFlag = s.drawFlag := rfl
@[simp] theorem State.raised_key (s : State) (e : Status) : (s.raised e).key = s.key := rfl
@[simp] theorem State.raised_rnd (s : State) (e : Status) : (s.raised e).rnd = s.rnd := rfl
@[simp] theorem State.raised_status (s : State) (e : Status) : (s.raised e).status = e := rfl
@[simp] theorem State.raised_soundTriggered (s : State) (e : Status) : (s.raised e).soundTriggered = s.soundTriggered := rfl
@[simp] theorem State.raised_inputs (s : State) (e : Status) : (s.raised e).inputs = s.inputs := rfl
@[simp] theorem State.raised_steps (s : State) (e : Status) : (s.raised e).steps = s.steps := rfl
@[simp] theorem State.raised_boot (s : State) (e : Status) : (s.raised e).boot = s.boot := rfl
@[simp] theorem State.raised_reg (s : State) (e : Status) (r : Reg) : (s.raised e).reg r = s.reg r := rfl
@[simp] theorem State.raised_memRead (s : State) (e : Status) (k : Nat) : (s.raised e).memRead k = s.memRead k := rfl
@[simp] theorem State.raised_pixel (s : State) (e : Status) (px : Fin 64) (py : Fin 32) : (s.raised e).pixel px py = s.pixel px py := rfl

/-! ## waiting -/

@[simp] theorem State.waiting_mem (s : State) : (s.waiting).mem = s.mem := rfl
@[simp] theorem State.waiting_v (s : State) : (s.waiting).v = s.v := rfl
@[simp] theorem State.waiting_i (s : State) : (s.waiting).i = s.i := rfl
@[simp] theorem State.waiting_pc (s : State) : (s.waiting).pc = s.pc := rfl
@[simp] theorem State.waiting_stack (s : State) : (s.waiting).stack = s.stack := rfl
@[simp] theorem State.waiting_sp (s : State) : (s.waiting).sp = s.sp := rfl
@[simp] theorem State.waiting_dt (s : State) : (s.waiting).dt = s.dt := rfl
@[simp] theorem State.waiting_st (s : State) : (s.waiting).st = s.st := rfl
@[simp] theorem State.waiting_gfx (s : State) : (s.waiting).gfx = s.gfx := rfl
@[simp] theorem State.waiting_drawFlag (s : State) : (s.waiting).drawFlag = s.drawFlag := rfl
@[simp] theorem State.waiting_key (s : State) : (s.waiting).key = s.key := rfl
@[simp] theorem State.waiting_rnd (s : State) : (s.waiting).rnd = s.rnd := rfl
@[simp] theorem State.waiting_status (s : State) : (s.waiting).status = .waitingForKey := rfl
@[simp] theorem State.waiting_soundTriggered (s : State) : (s.waiting).soundTriggered = s.soundTriggered := rfl
@[simp] theorem State.waiting_inputs (s : State) : (s.waiting).inputs = s.inputs := rfl
@[simp] theorem State.waiting_steps (s : State) : (s.waiting).steps = s.steps := rfl
@[simp] theorem State.waiting_boot (s : State) : (s.waiting).boot = s.boot := rfl
@[simp] theorem State.waiting_reg (s : State) (r : Reg) : (s.waiting).reg r = s.reg r := rfl
@[simp] theorem State.waiting_memRead (s : State) (k : Nat) : (s.waiting).memRead k = s.memRead k := rfl
@[simp] theorem State.waiting_pixel (s : State) (px : Fin 64) (py : Fin 32) : (s.waiting).pixel px py = s.pixel px py := rfl

/-! ## shown -/

@[simp] theorem State.shown_mem (s : State) (g : Gfx) : (s.shown g).mem = s.mem := rfl
@[simp] theorem State.shown_v (s : State) (g : Gfx) : (s.shown g).v = s.v := rfl
@[simp] theorem State.shown_i (s : State) (g : Gfx) : (s.shown g).i = s.i := rfl
@[simp] theorem State.shown_pc (s : State) (g : Gfx) : (s.shown g).pc = s.pc := rfl
@[simp] theorem State.shown_stack (s : State) (g : Gfx) : (s.shown g).stack = s.stack := rfl
@[simp] theorem State.shown_sp (s : State) (g : Gfx) : (s.shown g).sp = s.sp := rfl
@[simp] theorem State.shown_dt (s : State) (g : Gfx) : (s.shown g).dt = s.dt := rfl
@[simp] theorem State.shown_st (s : State) (g : Gfx) : (s.shown g).st = s.st := rfl
@[simp] theorem State.shown_gfx (s : State) (g : Gfx) : (s.shown g).gfx = g := rfl
@[simp] theorem State.shown_drawFlag (s : State) (g : Gfx) : (s.shown g).drawFlag = true := rfl
@[simp] theorem State.shown_key (s : State) (g : Gfx) : (s.shown g).key = s.key := rfl
@[simp] theorem State.shown_rnd (s : State) (g : Gfx) : (s.shown g).rnd = s.rnd := rfl
@[simp] theorem State.shown_status (s : State) (g : Gfx) : (s.shown g).status = s.status := rfl
@[simp] theorem State.shown_soundTriggered (s : State) (g : Gfx) : (s.shown g).soundTriggered = s.soundTriggered := rfl
@[simp] theorem State.shown_inputs (s : State) (g : Gfx) : (s.shown g).inputs = s.inputs := rfl
@[simp] theorem State.shown_steps (s : State) (g : Gfx) : (s.shown g).steps = s.steps := rfl
@[simp] theorem State.shown_boot (s : State) (g : Gfx) : (s.shown g).boot = s.boot := rfl
@[simp] theorem State.shown_reg (s : State) (g : Gfx) (r : Reg) : (s.shown g).reg r = s.reg r := rfl
@[simp] theorem State.shown_memRead (s : State) (g : Gfx) (k : Nat) : (s.shown g).memRead k = s.memRead k := rfl
@[simp] theorem State.shown_pixel (s : State) (g : Gfx) (px : Fin 64) (py : Fin 32) : (s.shown g).pixel px py = g.pixel px py := rfl

/-! ## begun -/

@[simp] theorem State.begun_mem (s : State) : (s.begun).mem = s.mem := rfl
@[simp] theorem State.begun_v (s : State) : (s.begun).v = s.v := rfl
@[simp] theorem State.begun_i (s : State) : (s.begun).i = s.i := rfl
@[simp] theorem State.begun_pc (s : State) : (s.begun).pc = s.pc := rfl
@[simp] theorem State.begun_stack (s : State) : (s.begun).stack = s.stack := rfl
@[simp] theorem State.begun_sp (s : State) : (s.begun).sp = s.sp := rfl
@[simp] theorem State.begun_dt (s : State) : (s.begun).dt = s.dt := rfl
@[simp] theorem State.begun_st (s : State) : (s.begun).st = s.st := rfl
@[simp] theorem State.begun_gfx (s : State) : (s.begun).gfx = s.gfx := rfl
@[simp] theorem State.begun_drawFlag (s : State) : (s.begun).drawFlag = false := rfl
@[simp] theorem State.begun_key (s : State) : (s.begun).key = s.nextInput.pressedKeys := rfl
@[simp] theorem State.begun_rnd (s : State) : (s.begun).rnd = s.nextInput.rnd := rfl
@[simp] theorem State.begun_status (s : State) : (s.begun).status = s.status := rfl
@[simp] theorem State.begun_soundTriggered (s : State) : (s.begun).soundTriggered = false := rfl
@[simp] theorem State.begun_inputs (s : State) : (s.begun).inputs = s.inputs.tail := rfl
@[simp] theorem State.begun_steps (s : State) : (s.begun).steps = s.steps + 1 := rfl
@[simp] theorem State.begun_boot (s : State) : (s.begun).boot = .running := rfl
@[simp] theorem State.begun_reg (s : State) (r : Reg) : (s.begun).reg r = s.reg r := rfl
@[simp] theorem State.begun_memRead (s : State) (k : Nat) : (s.begun).memRead k = s.memRead k := rfl
@[simp] theorem State.begun_pixel (s : State) (px : Fin 64) (py : Fin 32) : (s.begun).pixel px py = s.pixel px py := rfl

/-! ## ticked -/

@[simp] theorem State.ticked_mem (s : State) : (s.ticked).mem = s.mem := rfl
@[simp] theorem State.ticked_v (s : State) : (s.ticked).v = s.v := rfl
@[simp] theorem State.ticked_i (s : State) : (s.ticked).i = s.i := rfl
@[simp] theorem State.ticked_pc (s : State) : (s.ticked).pc = s.pc := rfl
@[simp] theorem State.ticked_stack (s : State) : (s.ticked).stack = s.stack := rfl
@[simp] theorem State.ticked_sp (s : State) : (s.ticked).sp = s.sp := rfl
@[simp] theorem State.ticked_dt (s : State) : (s.ticked).dt = countDown s.dt := rfl
@[simp] theorem State.ticked_st (s : State) : (s.ticked).st = countDown s.st := rfl
@[simp] theorem State.ticked_gfx (s : State) : (s.ticked).gfx = s.gfx := rfl
@[simp] theorem State.ticked_drawFlag (s : State) : (s.ticked).drawFlag = s.drawFlag := rfl
@[simp] theorem State.ticked_key (s : State) : (s.ticked).key = s.key := rfl
@[simp] theorem State.ticked_rnd (s : State) : (s.ticked).rnd = s.rnd := rfl
@[simp] theorem State.ticked_status (s : State) : (s.ticked).status = s.status := rfl
@[simp] theorem State.ticked_soundTriggered (s : State) : (s.ticked).soundTriggered = (s.st == 0x01#8) := rfl
@[simp] theorem State.ticked_inputs (s : State) : (s.ticked).inputs = s.inputs := rfl
@[simp] theorem State.ticked_steps (s : State) : (s.ticked).steps = s.steps := rfl
@[simp] theorem State.ticked_boot (s : State) : (s.ticked).boot = s.boot := rfl
@[simp] theorem State.ticked_reg (s : State) (r : Reg) : (s.ticked).reg r = s.reg r := rfl
@[simp] theorem State.ticked_memRead (s : State) (k : Nat) : (s.ticked).memRead k = s.memRead k := rfl
@[simp] theorem State.ticked_pixel (s : State) (px : Fin 64) (py : Fin 32) : (s.ticked).pixel px py = s.pixel px py := rfl

end Sys2Proof.Machine
end

