-- ==== Sys2Proof/Laws/Display.lean ====
section
/-! SUPPORT. What drawing can do, said once per level: a dot, a row, the sprite.  Each frame-buffer pixel is flipped exactly if the sprite
covers it with a 1 bit, and `hit` is set exactly if such a pixel was 1 before. -/

namespace Sys2Proof.Machine

theorem Gfx.pixel_blank (px : Fin 64) (py : Fin 32) : blankGfx.pixel px py = false := by
  simp [Gfx.pixel, blankGfx, Vector.get_eq_getElem]

theorem Gfx.pixel_flip (g : Gfx) (x px : Fin 64) (y py : Fin 32) :
    (g.flip x y).pixel px py = (g.pixel px py ^^ (decide (px = x) && decide (py = y))) := by
  simp only [Gfx.flip, Gfx.pixel, Vector.get_eq_getElem, Vector.getElem_set]
  by_cases hx : px = x
  · subst hx
    by_cases hy : py = y
    · subst hy; simp
    · have : ¬ y.val = py.val := fun h => hy (Fin.ext h.symm)
      simp [this, hy]
  · have : ¬ x.val = px.val := fun h => hx (Fin.ext h.symm)
    simp [this, hx]

theorem spriteColumn_eq (x0 : Byte) (px : Fin 64) (c : Nat) (hc : c < 64) :
    px = spriteColumn x0 c ↔ columnFor x0 px = c := by
  simp only [spriteColumn, columnFor, Fin.ext_iff]
  omega

theorem spriteLine_eq (y0 : Byte) (py : Fin 32) (r : Nat) (hr : r < 32) :
    py = spriteLine y0 r ↔ rowFor y0 py = r := by
  simp only [spriteLine, rowFor, Fin.ext_iff]
  omega

theorem drawDot_pixel (x0 y0 : Byte) (r : Nat) (b : Byte) (k : Canvas) (c : Nat) (hr : r < 32) (hc : c < 64)
    (px : Fin 64) (py : Fin 32) :
    (drawDot x0 y0 r b k c).gfx.pixel px py =
      (k.gfx.pixel px py ^^ (spriteBit b c && decide (columnFor x0 px = c) && decide (rowFor y0 py = r))) := by
  unfold drawDot
  split
  · rename_i hb
    simp [Gfx.pixel_flip, spriteColumn_eq _ _ _ hc, spriteLine_eq _ _ _ hr, hb]
  · rename_i hb
    simp [hb]

theorem drawDot_hit (x0 y0 : Byte) (r : Nat) (b : Byte) (k : Canvas) (c : Nat) :
    (drawDot x0 y0 r b k c).hit = true ↔
      k.hit = true ∨ (spriteBit b c = true ∧ k.gfx.pixel (spriteColumn x0 c) (spriteLine y0 r) = true) := by
  unfold drawDot
  split <;> simp_all

/-- The first `m` columns of a sprite row flip exactly the pixels under its 1 bits. -/
theorem drawColumns_pixel (x0 y0 : Byte) (r : Nat) (b : Byte) (k : Canvas) (m : Nat) (hr : r < 32) (hm : m ≤ 64)
    (px : Fin 64) (py : Fin 32) :
    ((List.range m).foldl (drawDot x0 y0 r b) k).gfx.pixel px py =
      (k.gfx.pixel px py ^^ (decide (columnFor x0 px < m) && spriteBit b (columnFor x0 px) && decide (rowFor y0 py = r))) := by
  induction m with
  | zero => simp
  | succ m ih =>
    rw [List.range_succ, List.foldl_append, List.foldl_cons, List.foldl_nil, drawDot_pixel _ _ _ _ _ _ hr (by omega),
      ih (by omega)]
    by_cases h : columnFor x0 px = m
    · simp [h]
    · have : columnFor x0 px < m + 1 ↔ columnFor x0 px < m := by omega
      simp [h, this]

/-- A collision in the first `m` columns: a pixel under a 1 bit that was 1 before. -/
theorem drawColumns_hit (x0 y0 : Byte) (r : Nat) (b : Byte) (k : Canvas) (m : Nat) (hr : r < 32) (hm : m ≤ 64) :
    ((List.range m).foldl (drawDot x0 y0 r b) k).hit = true ↔
      k.hit = true ∨ ∃ px py, columnFor x0 px < m ∧ spriteBit b (columnFor x0 px) = true ∧ rowFor y0 py = r ∧
        k.gfx.pixel px py = true := by
  induction m with
  | zero => simp
  | succ m ih =>
    rw [List.range_succ, List.foldl_append, List.foldl_cons, List.foldl_nil]
    have hcol : columnFor x0 (spriteColumn x0 m) = m := (spriteColumn_eq _ _ _ (by omega)).1 rfl
    have hrow : rowFor y0 (spriteLine y0 r) = r := (spriteLine_eq _ _ _ hr).1 rfl
    simp only [drawDot_hit, ih (by omega), drawColumns_pixel _ _ _ _ _ _ hr (show m ≤ 64 by omega), hcol, hrow,
      Nat.lt_irrefl, decide_false, Bool.false_and, Bool.xor_false]
    constructor
    · rintro ((h | ⟨px, py, h1, h2⟩) | ⟨h1, h2⟩)
      · exact .inl h
      · exact .inr ⟨px, py, by omega, h2⟩
      · exact .inr ⟨_, _, by omega, by rwa [hcol], hrow, h2⟩
    · rintro (h | ⟨px, py, h1, h2, h3, h4⟩)
      · exact .inl (.inl h)
      · by_cases hm' : columnFor x0 px = m
        · have e1 := (spriteColumn_eq x0 px m (by omega)).2 hm'
          have e2 := (spriteLine_eq y0 py r hr).2 h3
          exact .inr ⟨hm' ▸ h2, e1 ▸ e2 ▸ h4⟩
        · exact .inl (.inr ⟨px, py, by omega, h2, h3, h4⟩)

/-- The rows from `r` on flip exactly the pixels under the 1 bits of their bytes. -/
theorem drawRows_pixel (x0 y0 : Byte) (bs : List Byte) (r : Nat) (k : Canvas) (hr : r + bs.length ≤ 32)
    (px : Fin 64) (py : Fin 32) :
    (drawRows x0 y0 r bs k).gfx.pixel px py =
      (k.gfx.pixel px py ^^ (decide (columnFor x0 px < 8) && decide (r ≤ rowFor y0 py ∧ rowFor y0 py < r + bs.length) &&
        spriteBit (bs.getD (rowFor y0 py - r) 0x00#8) (columnFor x0 px))) := by
  induction bs generalizing r k with
  | nil =>
    have : ¬ (r ≤ rowFor y0 py ∧ rowFor y0 py < r) := by omega
    simp [drawRows, this]
  | cons b bs ih =>
    simp only [List.length_cons] at hr ⊢
    rw [drawRows, ih _ _ (by omega), drawRow, drawColumns_pixel _ _ _ _ _ _ (by omega) (by omega)]
    by_cases h : rowFor y0 py = r
    · simp [h]
    · by_cases hle : r ≤ rowFor y0 py
      · obtain ⟨d, hd⟩ : ∃ d, rowFor y0 py = r + 1 + d := ⟨rowFor y0 py - (r + 1), by omega⟩
        have e1 : (r + 1 ≤ r + 1 + d ∧ r + 1 + d < r + 1 + bs.length) ↔ (r ≤ r + 1 + d ∧ r + 1 + d < r + (bs.length + 1)) := by
          omega
        have e2 : r + 1 + d - r = d + 1 := by omega
        have e3 : ¬ r + 1 + d = r := by omega
        simp only [hd, e1, e2, e3, decide_false, Bool.and_false, Bool.xor_false, List.getD_cons_succ]
        rw [show r + 1 + d - (r + 1) = d by omega]
      · have e1 : ¬ (r + 1 ≤ rowFor y0 py) := by omega
        simp [h, hle, e1]

/-- A collision in the rows from `r` on: a pixel under a 1 bit that was 1 before. -/
theorem drawRows_hit (x0 y0 : Byte) (bs : List Byte) (r : Nat) (k : Canvas) (hr : r + bs.length ≤ 32) :
    (drawRows x0 y0 r bs k).hit = true ↔
      k.hit = true ∨ ∃ px py, columnFor x0 px < 8 ∧ (r ≤ rowFor y0 py ∧ rowFor y0 py < r + bs.length) ∧
        spriteBit (bs.getD (rowFor y0 py - r) 0x00#8) (columnFor x0 px) = true ∧ k.gfx.pixel px py = true := by
  induction bs generalizing r k with
  | nil =>
    simp only [drawRows, List.length_nil, Nat.add_zero]
    constructor
    · exact .inl
    · rintro (h | ⟨px, py, -, h, -⟩)
      · exact h
      · omega
  | cons b bs ih =>
    simp only [List.length_cons] at hr ⊢
    rw [drawRows, ih _ _ (by omega), drawRow, drawColumns_hit _ _ _ _ _ _ (by omega) (by omega)]
    simp only [drawColumns_pixel _ _ _ _ _ _ (show r < 32 by omega) (show 8 ≤ 64 by omega)]
    constructor
    · rintro ((h | ⟨px, py, h1, h2, h3, h4⟩) | ⟨px, py, h1, h2, h3, h4⟩)
      · exact .inl h
      · exact .inr ⟨px, py, h1, by omega, by simpa [h3] using h2, h4⟩
      · obtain ⟨d, hd⟩ : ∃ d, rowFor y0 py = r + 1 + d := ⟨rowFor y0 py - (r + 1), by omega⟩
        have hne : ¬ rowFor y0 py = r := by omega
        refine .inr ⟨px, py, h1, by omega, ?_, by simpa [hne] using h4⟩
        rw [hd] at h3 ⊢
        rw [show r + 1 + d - (r + 1) = d by omega] at h3
        rw [show r + 1 + d - r = d + 1 by omega]
        simpa using h3
    · rintro (h | ⟨px, py, h1, h2, h3, h4⟩)
      · exact .inl (.inl h)
      · by_cases h : rowFor y0 py = r
        · exact .inl (.inr ⟨px, py, h1, by simpa [h] using h3, h, h4⟩)
        · obtain ⟨d, hd⟩ : ∃ d, rowFor y0 py = r + 1 + d := ⟨rowFor y0 py - (r + 1), by omega⟩
          refine .inr ⟨px, py, h1, by omega, ?_, by simpa [h] using h4⟩
          rw [hd] at h3 ⊢
          rw [show r + 1 + d - r = d + 1 by omega] at h3
          rw [show r + 1 + d - (r + 1) = d by omega]
          simpa using h3

/-- What drawing a sprite of at most 32 rows does to a pixel. -/
theorem drawSprite_pixel (x0 y0 : Byte) (bs : List Byte) (g : Gfx) (h : bs.length ≤ 32) (px : Fin 64) (py : Fin 32) :
    (drawSprite x0 y0 bs g).gfx.pixel px py = (g.pixel px py ^^ spriteCovers x0 y0 bs px py) := by
  simp [drawSprite, drawRows_pixel _ _ _ _ _ (show 0 + bs.length ≤ 32 by omega), spriteCovers]

/-- When drawing a sprite of at most 32 rows reports a collision. -/
theorem drawSprite_hit (x0 y0 : Byte) (bs : List Byte) (g : Gfx) (h : bs.length ≤ 32) :
    (drawSprite x0 y0 bs g).hit = true ↔ ∃ px py, spriteCovers x0 y0 bs px py = true ∧ g.pixel px py = true := by
  rw [drawSprite, drawRows_hit _ _ _ _ _ (by omega)]
  simp [spriteCovers, and_assoc]

/-- A sprite covers a pixel exactly if one of its 1 bits, row `r` and column `c`, lands on it (45_display.md R153). -/
theorem spriteCovers_iff (x0 y0 : Byte) (bs : List Byte) (h : bs.length ≤ 32) (px : Fin 64) (py : Fin 32) :
    spriteCovers x0 y0 bs px py = true ↔ ∃ r c, r < bs.length ∧ c < 8 ∧ spriteBit (bs.getD r 0x00#8) c = true ∧
      px = spriteColumn x0 c ∧ py = spriteLine y0 r := by
  simp only [spriteCovers, Bool.and_eq_true, decide_eq_true_eq]
  constructor
  · rintro ⟨⟨hc, hr⟩, hb⟩
    exact ⟨_, _, hr, hc, hb, (spriteColumn_eq _ _ _ (by omega)).2 rfl, (spriteLine_eq _ _ _ (by omega)).2 rfl⟩
  · rintro ⟨r, c, hr, hc, hb, hx, hy⟩
    rw [(spriteColumn_eq _ _ _ (by omega)).1 hx, (spriteLine_eq _ _ _ (by omega)).1 hy]
    exact ⟨⟨hc, hr⟩, hb⟩

end Sys2Proof.Machine
end

