-- ==== Sys2Proof/Laws/Memory.lean ====
section
/-! SUPPORT. What reading and writing memory can do: a read after a write, and that every memory operation keeps the canonical form. -/

namespace Sys2Proof.Machine

/-! ## A read after an operation, in any memory, canonical or not -/

theorem Memory.read_erase (m : Memory) (a a' : Nat) :
    (m.erase a).read a' = if a' = a then unlistedByte a' else m.read a' := by
  induction m with
  | nil => simp [Memory.erase, Memory.read]
  | cons c m ih =>
    simp only [Memory.erase, List.filter_cons] at ih ⊢
    by_cases hc : c.1 = a
    · subst hc
      simp only [bne_self_eq_false, Bool.false_eq_true, ↓reduceIte, ih, Memory.read]
      split <;> rfl
    · simp only [bne_iff_ne, ne_eq, hc, not_false_eq_true, ↓reduceIte, Memory.read, ih]
      by_cases h : a' = c.1
      · simp [h, hc]
      · simp [h]

theorem Memory.read_insert (m : Memory) (a a' : Nat) (b : Byte) (h : ∀ c ∈ m, c.1 ≠ a) :
    (m.insert a b).read a' = if a' = a then b else m.read a' := by
  induction m with
  | nil => simp [Memory.insert, Memory.read]
  | cons c m ih =>
    have hc : c.1 ≠ a := h c (by simp)
    simp only [Memory.insert]
    split
    · simp only [Memory.read]
    · simp only [Memory.read, ih (fun d hd => h d (by simp [hd]))]
      by_cases h' : a' = c.1
      · simp [h', hc]
      · simp [h']

theorem Memory.ne_of_mem_erase (m : Memory) (a : Nat) : ∀ c ∈ m.erase a, c.1 ≠ a := by
  simp [Memory.erase]

/-- A read after a write: the byte written at its address, the old byte at every other. -/
theorem Memory.read_write (m : Memory) (a a' : Nat) (b : Byte) :
    (m.write a b).read a' = if a' = a then b else m.read a' := by
  unfold Memory.write
  split
  · rename_i hb
    rw [read_erase]
    split <;> simp_all
  · rw [read_insert _ _ _ _ (ne_of_mem_erase m a), read_erase]
    split <;> rfl

/-- Bytes written from `a` on leave every address that is none of theirs, modulo 4096. -/
theorem Memory.read_writeBytes_other (bs : List Byte) (m : Memory) (a a' : Nat)
    (h : ∀ k, k < bs.length → a' ≠ (a + k) % memorySize) : (m.writeBytes a bs).read a' = m.read a' := by
  induction bs generalizing m a with
  | nil => rfl
  | cons b bs ih =>
    rw [Memory.writeBytes, ih, read_write, if_neg]
    · simpa using h 0 (by simp)
    · intro k hk
      have := h (k + 1) (by simpa using hk)
      rwa [show a + (k + 1) = a + 1 + k by omega] at this

/-- At most 4096 bytes written from `a` on read back, byte `k` at address `a + k` modulo 4096. -/
theorem Memory.read_writeBytes_at (bs : List Byte) (m : Memory) (a k : Nat) (hk : k < bs.length)
    (hl : bs.length ≤ memorySize) : (m.writeBytes a bs).read ((a + k) % memorySize) = bs[k] := by
  induction bs generalizing m a k with
  | nil => simp at hk
  | cons b bs ih =>
    simp only [List.length_cons] at hk hl
    rw [Memory.writeBytes]
    cases k with
    | zero =>
      rw [read_writeBytes_other]
      · simp [read_write]
      · intro j hj h
        simp only [memorySize] at *
        omega
    | succ k =>
      rw [show a + (k + 1) = a + 1 + k by omega, ih _ _ _ (by omega) (by omega)]
      simp

/-! ## The canonical form -/

theorem Memory.wf_nil : Memory.wf [] := by decide

theorem Memory.wf_erase (m : Memory) (a : Nat) (h : m.wf) : (m.erase a).wf :=
  ⟨h.1.filter _, fun c hc => h.2 c (List.mem_of_mem_filter hc)⟩

theorem Memory.mem_insert (m : Memory) (a : Nat) (b : Byte) (d : Host.Cell) :
    d ∈ m.insert a b ↔ d = (a, b) ∨ d ∈ m := by
  induction m with
  | nil => simp [Memory.insert]
  | cons c m ih =>
    simp only [Memory.insert]
    split
    · simp
    · simp only [List.mem_cons, ih]
      tauto

theorem Memory.wf_insert (m : Memory) (a : Nat) (b : Byte) (h : m.wf) (ha : a < memorySize)
    (hb : b ≠ unlistedByte a) (hn : ∀ c ∈ m, c.1 ≠ a) : (m.insert a b).wf := by
  refine ⟨?_, fun d hd => ?_⟩
  · have hp := h.1
    clear h
    induction m with
    | nil => simp [Memory.insert]
    | cons c m ih =>
      have hc : c.1 ≠ a := hn c (by simp)
      obtain ⟨h1, h2⟩ := List.pairwise_cons.1 hp
      simp only [Memory.insert]
      split
      · rename_i hlt
        refine List.pairwise_cons.2 ⟨fun d hd => ?_, hp⟩
        rcases List.mem_cons.1 hd with rfl | hd
        · exact hlt
        · exact Nat.lt_trans hlt (h1 d hd)
      · refine List.pairwise_cons.2 ⟨fun d hd => ?_, ih (fun d hd => hn d (by simp [hd])) h2⟩
        rcases (Memory.mem_insert m a b d).1 hd with rfl | hd
        · simp only
          omega
        · exact h1 d hd
  · rcases (Memory.mem_insert m a b d).1 hd with rfl | hd
    · exact ⟨ha, hb⟩
    · exact h.2 d hd

theorem Memory.wf_write (m : Memory) (a : Nat) (b : Byte) (h : m.wf) (ha : a < memorySize) : (m.write a b).wf := by
  unfold Memory.write
  split
  · exact wf_erase m a h
  · rename_i hb
    exact wf_insert _ _ _ (wf_erase m a h) ha hb (ne_of_mem_erase m a)

theorem Memory.wf_writeBytes (bs : List Byte) (m : Memory) (a : Nat) (h : m.wf) : (m.writeBytes a bs).wf := by
  induction bs generalizing m a with
  | nil => exact h
  | cons b bs ih => exact ih _ _ (wf_write _ _ _ h (Nat.mod_lt _ (by decide)))

end Sys2Proof.Machine
end

