-- ==== Sys2Proof/Laws/Ops.lean ====
section
/-! SUPPORT. For each shared operation, what it can do, said once: registers, memory, stack, timers, keys, the step around exec. -/

namespace Sys2Proof.Machine

/-! ## Registers -/

@[simp] theorem State.reg_setReg (s : State) (x r : Reg) (b : Byte) :
    (s.setReg x b).reg r = if r = x then b else s.reg r := by
  simp only [State.setReg, State.reg, Vector.get_eq_getElem, Vector.getElem_set]
  by_cases h : r = x
  · subst h; simp
  · have : ¬ x.toNat = r.toNat := fun e => h (BitVec.eq_of_toNat_eq e.symm)
    simp [this, h]

@[simp] theorem State.reg_setFlag (s : State) (f : Bool) (r : Reg) :
    (s.setFlag f).reg r = if r = 0xF#4 then flagByte f else s.reg r := State.reg_setReg _ _ _ _

/-- Two states with the same registers agree on the register file. -/
theorem State.v_ext (s t : State) (h : ∀ r, t.reg r = s.reg r) : t.v = s.v := by
  refine Vector.ext fun k hk => ?_
  have := h (BitVec.ofNat 4 k)
  simpa [State.reg, Vector.get_eq_getElem, Nat.mod_eq_of_lt hk] using this

@[simp] theorem State.reg_loadRegs (s : State) (a n : Nat) (r : Reg) :
    (s.loadRegs a n).reg r = if r.toNat < n then s.memRead (a + r.toNat) else s.reg r := by
  simp [State.loadRegs, State.reg, Vector.get_eq_getElem]

@[simp] theorem State.length_regsBelow (s : State) (n : Nat) : (s.regsBelow n).length = n := by
  simp [State.regsBelow]

theorem State.getElem_regsBelow (s : State) (n k : Nat) (h : k < (s.regsBelow n).length) :
    (s.regsBelow n)[k] = s.reg (BitVec.ofNat 4 k) := by
  simp [State.regsBelow]

/-! ## Memory -/

@[simp] theorem State.length_memReads (s : State) (a n : Nat) : (s.memReads a n).length = n := by
  simp [State.memReads]

theorem State.getD_memReads (s : State) (a n k : Nat) (h : k < n) : (s.memReads a n).getD k 0x00#8 = s.memRead (a + k) := by
  simp [State.memReads, h]

/-- Storing bytes leaves every address that is none of theirs, modulo 4096. -/
theorem State.memRead_storeBytes_other (s : State) (a : Nat) (bs : List Byte) (a' : Nat)
    (h : ∀ k, k < bs.length → a' % memorySize ≠ (a + k) % memorySize) : (s.storeBytes a bs).memRead a' = s.memRead a' :=
  Memory.read_writeBytes_other _ _ _ _ h

/-- Byte `k` of at most 4096 stored bytes reads back at `a + k`. -/
theorem State.memRead_storeBytes_at (s : State) (a : Nat) (bs : List Byte) (k : Nat) (hk : k < bs.length)
    (hl : bs.length ≤ memorySize) : (s.storeBytes a bs).memRead (a + k) = bs[k] :=
  Memory.read_writeBytes_at _ _ _ _ hk hl

theorem State.wf_storeBytes (s : State) (a : Nat) (bs : List Byte) (h : s.mem.wf) : (s.storeBytes a bs).mem.wf :=
  Memory.wf_writeBytes _ _ _ h

/-! ## Stack -/

theorem stackIndex_val (sp : BitVec 5) (h : sp.toNat < 16) : (stackIndex sp).val = sp.toNat := Nat.mod_eq_of_lt h

@[simp] theorem State.stackTop_completed (s : State) (w : Word) : (s.completed w).stackTop = s.stackTop := rfl

/-- A push writes `pc` at the entry `sp` indexes and leaves every other entry. -/
theorem State.get_stack_pushPc (s : State) (k : Fin 16) :
    s.pushPc.stack.get k = if k = stackIndex s.sp then s.pc else s.stack.get k := by
  simp only [State.pushPc, Vector.get_eq_getElem, Vector.getElem_set]
  by_cases h : k = stackIndex s.sp
  · subst h; simp
  · have : ¬ (stackIndex s.sp).val = k.val := fun e => h (Fin.ext e.symm)
    simp [this, h]

/-! ## Keys -/

/-- No key is found exactly if no key is pressed. -/
theorem lowestKey_none (key : Word) : lowestKey key = none ↔ key = 0#16 := by
  simp only [lowestKey, List.find?_eq_none, List.mem_range, keyPressed, Bool.not_eq_true]
  constructor
  · intro h
    exact BitVec.eq_of_getLsbD_eq fun k hk => by simp [h k hk]
  · rintro rfl k -
    simp

/-- The key found is pressed, and no lower key is. -/
theorem lowestKey_some (key : Word) (k : Nat) :
    lowestKey key = some k ↔ k < 16 ∧ keyPressed key k = true ∧ ∀ j, j < k → keyPressed key j = false := by
  simp [lowestKey, List.find?_range_eq_some]
  tauto

/-! ## Timers and the end of a step -/

theorem countDown_toNat (b : Byte) : (countDown b).toNat = b.toNat - 1 := by
  unfold countDown
  split
  · rename_i h; simp [h]
  · rename_i h
    have : b.toNat ≠ 0 := fun e => h (BitVec.eq_of_toNat_eq (by simpa using e))
    rw [BitVec.toNat_sub]
    have := b.isLt
    simp
    omega

theorem State.ended_of_running (s : State) (h : s.status = .running) : s.ended = s.ticked := if_pos h

theorem State.ended_of_not_running (s : State) (h : s.status ≠ .running) : s.ended = s := if_neg h

@[simp] theorem State.ended_status (s : State) : s.ended.status = s.status := by
  unfold State.ended; split <;> simp [*]

@[simp] theorem State.ended_pc (s : State) : s.ended.pc = s.pc := by unfold State.ended; split <;> rfl

@[simp] theorem State.ended_mem (s : State) : s.ended.mem = s.mem := by unfold State.ended; split <;> rfl

@[simp] theorem State.ended_v (s : State) : s.ended.v = s.v := by unfold State.ended; split <;> rfl

@[simp] theorem State.ended_i (s : State) : s.ended.i = s.i := by unfold State.ended; split <;> rfl

@[simp] theorem State.ended_sp (s : State) : s.ended.sp = s.sp := by unfold State.ended; split <;> rfl

@[simp] theorem State.ended_stack (s : State) : s.ended.stack = s.stack := by unfold State.ended; split <;> rfl

@[simp] theorem State.ended_gfx (s : State) : s.ended.gfx = s.gfx := by unfold State.ended; split <;> rfl

@[simp] theorem State.ended_drawFlag (s : State) : s.ended.drawFlag = s.drawFlag := by unfold State.ended; split <;> rfl

@[simp] theorem State.ended_key (s : State) : s.ended.key = s.key := by unfold State.ended; split <;> rfl

@[simp] theorem State.ended_rnd (s : State) : s.ended.rnd = s.rnd := by unfold State.ended; split <;> rfl

@[simp] theorem State.ended_inputs (s : State) : s.ended.inputs = s.inputs := by unfold State.ended; split <;> rfl

@[simp] theorem State.ended_steps (s : State) : s.ended.steps = s.steps := by unfold State.ended; split <;> rfl

@[simp] theorem State.ended_boot (s : State) : s.ended.boot = s.boot := by unfold State.ended; split <;> rfl

@[simp] theorem State.begun_fetchWord (s : State) : s.begun.fetchWord = s.fetchWord := rfl

/-! ## The step around exec -/

/-- Every meaning answers a next state. -/
theorem exec_next (i : Instr) (s : State) : ∃ t, exec i s = .next t := by
  cases i <;> exact ⟨_, rfl⟩

/-- A step whose fetched word is illegal. -/
theorem step_of_illegal (s : State) (r : Illegal) (h : decode s.fetchWord = .error r) :
    step s = .next (s.begun.raised .unknownOpcode) := by
  simp [step, cycle, runWord, h]

/-- A step whose fetched word decodes to `i`, where exec answers `t`. -/
theorem step_of_exec (s t : State) (i : Instr) (h : decode s.fetchWord = .ok i) (he : exec i s.begun = .next t) :
    step s = .next t.ended := by
  simp [step, cycle, runWord, h, he, finish]

/-- What a step can do: raise `UnknownOpcode` on an illegal word, or run the decoded instruction and end the step. -/
theorem step_cases (s t : State) (h : step s = .next t) :
    (∃ r, decode s.fetchWord = .error r ∧ t = s.begun.raised .unknownOpcode) ∨
    (∃ i u, decode s.fetchWord = .ok i ∧ exec i s.begun = .next u ∧ t = u.ended) := by
  cases hd : decode s.fetchWord with
  | error r =>
    rw [step_of_illegal s r hd] at h
    exact .inl ⟨r, rfl, by simpa using h.symm⟩
  | ok i =>
    obtain ⟨u, hu⟩ := exec_next i s.begun
    rw [step_of_exec s u i hd hu] at h
    exact .inr ⟨i, u, rfl, hu, by simpa using h.symm⟩

end Sys2Proof.Machine
end

