-- ==== Sys2Proof/Laws/PerInstr.lean ====
section
/-! SUPPORT. Statements for all instructions, one lemma per constructor. -/

/-- The word an instruction encodes to selects the instruction's row of the opcode table (30_encoding.md section 4, R66). -/
def Sys2Proof.Laws.EncodeInRow.Statement (i : Sys2Proof.Instr) : Prop :=
  i.row ∈ Sys2Proof.opcodeTable ∧ i.row.matchesWord (Sys2Proof.encode i) = true

namespace Sys2Proof.Laws.EncodeInRow

/-- An instruction's row is a row of the table. -/
theorem row_mem (i : Instr) : i.row ∈ opcodeTable := by
  cases i <;> simp [Instr.row, opcodeTable]

/-- Format A against the mask F000. -/
theorem ofA (g : Nat) (nnn : BitVec 12) (hg : g < 16) (p : Word) (hp : p.toNat = g * 0x1000) :
    (TableRow.mk p 0xF000#16).matchesWord (wordA g nnn) = true := by
  simp only [TableRow.matchesWord, beq_iff_eq]
  refine BitVec.eq_of_toNat_eq ?_
  rw [and_F000, fieldG_wordA _ _ hg, hp]

/-- Format XI against the mask F000. -/
theorem ofXI (g : Nat) (x : Reg) (nn : Byte) (hg : g < 16) (p : Word) (hp : p.toNat = g * 0x1000) :
    (TableRow.mk p 0xF000#16).matchesWord (wordXI g x nn) = true := by
  simp only [TableRow.matchesWord, beq_iff_eq]
  refine BitVec.eq_of_toNat_eq ?_
  rw [and_F000, fieldG_wordXI _ _ _ hg, hp]

/-- Format XYN against the mask F000. -/
theorem ofXYN (g : Nat) (x y : Reg) (n : BitVec 4) (hg : g < 16) (p : Word) (hp : p.toNat = g * 0x1000) :
    (TableRow.mk p 0xF000#16).matchesWord (wordXYN g x y n) = true := by
  simp only [TableRow.matchesWord, beq_iff_eq]
  refine BitVec.eq_of_toNat_eq ?_
  rw [and_F000, fieldG_wordXYN _ _ _ _ hg, hp]

/-- Format XY against the mask F00F. -/
theorem ofXY (g : Nat) (x y : Reg) (n : BitVec 4) (hg : g < 16) (p : Word) (hp : p.toNat = g * 0x1000 + n.toNat) :
    (TableRow.mk p 0xF00F#16).matchesWord (wordXYN g x y n) = true := by
  simp only [TableRow.matchesWord, beq_iff_eq]
  refine BitVec.eq_of_toNat_eq ?_
  rw [and_F00F, fieldG_wordXYN _ _ _ _ hg, fieldN_wordXYN _ _ _ _ hg, hp]

/-- Format XF against the mask F0FF. -/
theorem ofXF (g : Nat) (x : Reg) (nn : Byte) (hg : g < 16) (p : Word) (hp : p.toNat = g * 0x1000 + nn.toNat) :
    (TableRow.mk p 0xF0FF#16).matchesWord (wordXI g x nn) = true := by
  simp only [TableRow.matchesWord, beq_iff_eq]
  refine BitVec.eq_of_toNat_eq ?_
  rw [and_F0FF, fieldG_wordXI _ _ _ hg, fieldNN_wordXI _ _ _ hg, hp]

theorem cls : Statement (.cls) :=
  ⟨row_mem _, by decide⟩

theorem ret : Statement (.ret) :=
  ⟨row_mem _, by decide⟩

theorem jp (nnn : BitVec 12) : Statement (.jp nnn) :=
  ⟨row_mem _, ofA _ _ (by decide) _ (by decide)⟩

theorem call (nnn : BitVec 12) : Statement (.call nnn) :=
  ⟨row_mem _, ofA _ _ (by decide) _ (by decide)⟩

theorem seVxNn (x : Reg) (nn : Byte) : Statement (.seVxNn x nn) :=
  ⟨row_mem _, ofXI _ _ _ (by decide) _ (by decide)⟩

theorem sneVxNn (x : Reg) (nn : Byte) : Statement (.sneVxNn x nn) :=
  ⟨row_mem _, ofXI _ _ _ (by decide) _ (by decide)⟩

theorem seVxVy (x y : Reg) : Statement (.seVxVy x y) :=
  ⟨row_mem _, ofXY _ _ _ _ (by decide) _ (by decide)⟩

theorem ldVxNn (x : Reg) (nn : Byte) : Statement (.ldVxNn x nn) :=
  ⟨row_mem _, ofXI _ _ _ (by decide) _ (by decide)⟩

theorem addVxNn (x : Reg) (nn : Byte) : Statement (.addVxNn x nn) :=
  ⟨row_mem _, ofXI _ _ _ (by decide) _ (by decide)⟩

theorem ldVxVy (x y : Reg) : Statement (.ldVxVy x y) :=
  ⟨row_mem _, ofXY _ _ _ _ (by decide) _ (by decide)⟩

theorem orVxVy (x y : Reg) : Statement (.orVxVy x y) :=
  ⟨row_mem _, ofXY _ _ _ _ (by decide) _ (by decide)⟩

theorem andVxVy (x y : Reg) : Statement (.andVxVy x y) :=
  ⟨row_mem _, ofXY _ _ _ _ (by decide) _ (by decide)⟩

theorem xorVxVy (x y : Reg) : Statement (.xorVxVy x y) :=
  ⟨row_mem _, ofXY _ _ _ _ (by decide) _ (by decide)⟩

theorem addVxVy (x y : Reg) : Statement (.addVxVy x y) :=
  ⟨row_mem _, ofXY _ _ _ _ (by decide) _ (by decide)⟩

theorem subVxVy (x y : Reg) : Statement (.subVxVy x y) :=
  ⟨row_mem _, ofXY _ _ _ _ (by decide) _ (by decide)⟩

theorem shrVx (x y : Reg) : Statement (.shrVx x y) :=
  ⟨row_mem _, ofXY _ _ _ _ (by decide) _ (by decide)⟩

theorem subnVxVy (x y : Reg) : Statement (.subnVxVy x y) :=
  ⟨row_mem _, ofXY _ _ _ _ (by decide) _ (by decide)⟩

theorem shlVx (x y : Reg) : Statement (.shlVx x y) :=
  ⟨row_mem _, ofXY _ _ _ _ (by decide) _ (by decide)⟩

theorem sneVxVy (x y : Reg) : Statement (.sneVxVy x y) :=
  ⟨row_mem _, ofXY _ _ _ _ (by decide) _ (by decide)⟩

theorem ldINnn (nnn : BitVec 12) : Statement (.ldINnn nnn) :=
  ⟨row_mem _, ofA _ _ (by decide) _ (by decide)⟩

theorem jpV0Nnn (nnn : BitVec 12) : Statement (.jpV0Nnn nnn) :=
  ⟨row_mem _, ofA _ _ (by decide) _ (by decide)⟩

theorem rndVxNn (x : Reg) (nn : Byte) : Statement (.rndVxNn x nn) :=
  ⟨row_mem _, ofXI _ _ _ (by decide) _ (by decide)⟩

theorem drwVxVyN (x y : Reg) (n : BitVec 4) : Statement (.drwVxVyN x y n) :=
  ⟨row_mem _, ofXYN _ _ _ _ (by decide) _ (by decide)⟩

theorem skpVx (x : Reg) : Statement (.skpVx x) :=
  ⟨row_mem _, ofXF _ _ _ (by decide) _ (by decide)⟩

theorem sknpVx (x : Reg) : Statement (.sknpVx x) :=
  ⟨row_mem _, ofXF _ _ _ (by decide) _ (by decide)⟩

theorem ldVxDt (x : Reg) : Statement (.ldVxDt x) :=
  ⟨row_mem _, ofXF _ _ _ (by decide) _ (by decide)⟩

theorem ldVxK (x : Reg) : Statement (.ldVxK x) :=
  ⟨row_mem _, ofXF _ _ _ (by decide) _ (by decide)⟩

theorem ldDtVx (x : Reg) : Statement (.ldDtVx x) :=
  ⟨row_mem _, ofXF _ _ _ (by decide) _ (by decide)⟩

theorem ldStVx (x : Reg) : Statement (.ldStVx x) :=
  ⟨row_mem _, ofXF _ _ _ (by decide) _ (by decide)⟩

theorem addIVx (x : Reg) : Statement (.addIVx x) :=
  ⟨row_mem _, ofXF _ _ _ (by decide) _ (by decide)⟩

theorem ldFVx (x : Reg) : Statement (.ldFVx x) :=
  ⟨row_mem _, ofXF _ _ _ (by decide) _ (by decide)⟩

theorem ldBVx (x : Reg) : Statement (.ldBVx x) :=
  ⟨row_mem _, ofXF _ _ _ (by decide) _ (by decide)⟩

theorem ldMemVx (x : Reg) : Statement (.ldMemVx x) :=
  ⟨row_mem _, ofXF _ _ _ (by decide) _ (by decide)⟩

theorem ldVxMem (x : Reg) : Statement (.ldVxMem x) :=
  ⟨row_mem _, ofXF _ _ _ (by decide) _ (by decide)⟩

/-- The statement for every instruction. -/
theorem holds (i : Instr) : Statement i :=
  match i with
  | .cls => cls
  | .ret => ret
  | .jp nnn => jp nnn
  | .call nnn => call nnn
  | .seVxNn x nn => seVxNn x nn
  | .sneVxNn x nn => sneVxNn x nn
  | .seVxVy x y => seVxVy x y
  | .ldVxNn x nn => ldVxNn x nn
  | .addVxNn x nn => addVxNn x nn
  | .ldVxVy x y => ldVxVy x y
  | .orVxVy x y => orVxVy x y
  | .andVxVy x y => andVxVy x y
  | .xorVxVy x y => xorVxVy x y
  | .addVxVy x y => addVxVy x y
  | .subVxVy x y => subVxVy x y
  | .shrVx x y => shrVx x y
  | .subnVxVy x y => subnVxVy x y
  | .shlVx x y => shlVx x y
  | .sneVxVy x y => sneVxVy x y
  | .ldINnn nnn => ldINnn nnn
  | .jpV0Nnn nnn => jpV0Nnn nnn
  | .rndVxNn x nn => rndVxNn x nn
  | .drwVxVyN x y n => drwVxVyN x y n
  | .skpVx x => skpVx x
  | .sknpVx x => sknpVx x
  | .ldVxDt x => ldVxDt x
  | .ldVxK x => ldVxK x
  | .ldDtVx x => ldDtVx x
  | .ldStVx x => ldStVx x
  | .addIVx x => addIVx x
  | .ldFVx x => ldFVx x
  | .ldBVx x => ldBVx x
  | .ldMemVx x => ldMemVx x
  | .ldVxMem x => ldVxMem x

end Sys2Proof.Laws.EncodeInRow
end

