-- ==== Sys2Proof/Tests/Slice0.lean ====
section
/-! SUPPORT. Tests on fixed values, every expected result from the spec (95_test_vectors.md, or the rule named), and for every statement
with hypotheses a concrete case that meets them. -/

namespace Sys2Proof.Machine.Tests

open Sys2Proof Sys2Proof.Machine

/-! ## Legality: one ill-formed word for each check, and the program length (30_encoding.md R60, 20_memory.md R45) -/

theorem test_illegal_group0 : wordLegal 0x0000 = false ∧ wordLegal 0x01E0 = false ∧ wordLegal 0x00E1 = false := by decide
theorem test_illegal_group5 : wordLegal 0x5AB1 = false := by decide
theorem test_illegal_group8 : wordLegal 0x8AB9 = false ∧ wordLegal 0x800F = false := by decide
theorem test_illegal_group9 : wordLegal 0x9AB5 = false := by decide
theorem test_illegal_groupE : wordLegal 0xE09F = false ∧ wordLegal 0xE0A0 = false := by decide
theorem test_illegal_groupF : wordLegal 0xF0FF = false ∧ wordLegal 0xF056 = false := by decide
theorem test_legal_neighbours : wordLegal 0x00E0 = true ∧ wordLegal 0x800E = true ∧ wordLegal 0xD000 = true := by decide
theorem test_program_too_long : programFits (List.replicate 3585 0x00#8) = false := by
  rw [programFits, List.length_replicate]; decide
theorem test_program_longest : programFits (List.replicate 3584 0x00#8) = true := by
  rw [programFits, List.length_replicate]; decide

/-! ## Decoding: a word of every constructor, written bit by bit from the opcode table (30_encoding.md section 4) -/

theorem test_decode_flow :
    decode 0b0000000011100000#16 = .ok .cls ∧ decode 0b0000000011101110#16 = .ok .ret ∧
    decode 0b0001101010111100#16 = .ok (.jp 0xABC) ∧ decode 0b0010111111111111#16 = .ok (.call 0xFFF) ∧
    decode 0b1011001100000001#16 = .ok (.jpV0Nnn 0x301) := by decide

theorem test_decode_skip :
    decode 0b0011101001111111#16 = .ok (.seVxNn 0xA 0x7F) ∧ decode 0b0100010110000001#16 = .ok (.sneVxNn 0x5 0x81) ∧
    decode 0b0101101010110000#16 = .ok (.seVxVy 0xA 0xB) ∧ decode 0b1001000100100000#16 = .ok (.sneVxVy 0x1 0x2) ∧
    decode 0b1110000010011110#16 = .ok (.skpVx 0x0) ∧ decode 0b1110111110100001#16 = .ok (.sknpVx 0xF) := by decide

theorem test_decode_load_and_random :
    decode 0b0110101000101100#16 = .ok (.ldVxNn 0xA 0x2C) ∧ decode 0b0111000111111110#16 = .ok (.addVxNn 0x1 0xFE) ∧
    decode 0b1100000100001111#16 = .ok (.rndVxNn 0x1 0x0F) := by decide

theorem test_decode_group8 :
    decode 0b1000000100100000#16 = .ok (.ldVxVy 0x1 0x2) ∧ decode 0b1000000100100001#16 = .ok (.orVxVy 0x1 0x2) ∧
    decode 0b1000000100100010#16 = .ok (.andVxVy 0x1 0x2) ∧ decode 0b1000000100100011#16 = .ok (.xorVxVy 0x1 0x2) ∧
    decode 0b1000101010110100#16 = .ok (.addVxVy 0xA 0xB) ∧ decode 0b1000000100100101#16 = .ok (.subVxVy 0x1 0x2) ∧
    decode 0b1000000111110110#16 = .ok (.shrVx 0x1 0xF) ∧ decode 0b1000000100100111#16 = .ok (.subnVxVy 0x1 0x2) ∧
    decode 0b1000000000001110#16 = .ok (.shlVx 0x0 0x0) := by decide

theorem test_decode_index_and_memory :
    decode 0b1010001011110000#16 = .ok (.ldINnn 0x2F0) ∧ decode 0b1111000100011110#16 = .ok (.addIVx 0x1) ∧
    decode 0b1111101000101001#16 = .ok (.ldFVx 0xA) ∧ decode 0b1111111000110011#16 = .ok (.ldBVx 0xE) ∧
    decode 0b1111001001010101#16 = .ok (.ldMemVx 0x2) ∧ decode 0b1111000001100101#16 = .ok (.ldVxMem 0x0) := by decide

theorem test_decode_display : decode 0b1101010110100011#16 = .ok (.drwVxVyN 0x5 0xA 0x3) := by decide

theorem test_decode_timer_and_key :
    decode 0b1111000100000111#16 = .ok (.ldVxDt 0x1) ∧ decode 0b1111010100001010#16 = .ok (.ldVxK 0x5) ∧
    decode 0b1111000000010101#16 = .ok (.ldDtVx 0x0) ∧ decode 0b1111110000011000#16 = .ok (.ldStVx 0xC) := by decide

/-- 95_test_vectors.md 2.1: one illegal word of each group is rejected under the group's name. -/
theorem test_decode_rejects_by_name :
    decode 0x00FE = .error .group0 ∧ decode 0x500F = .error .group5 ∧ decode 0x8008 = .error .group8 ∧
    decode 0x9AB5 = .error .group9 ∧ decode 0xE19D = .error .groupE ∧ decode 0xF075 = .error .groupF := by decide

/-- 30_encoding.md R50, 20_memory.md R33: the first byte is the high one. -/
theorem test_table_word : decodeTableWord 16 0x3005 = some (.seVxNn 0x0 0x05) ∧ decodeTableWord 16 0x5AB1 = none := by decide

theorem test_encode_bytes : encodeBytes (.jp 0x204) = [0x12, 0x04] := by decide

/-! ## One step on a small state -/

/-- The reset state with these registers. -/
def withRegs (l : List (Reg × Byte)) : State := l.foldl (fun s p => s.setReg p.1 p.2) State.reset

/-- The state in which the host presents `keys` and `rnd` to a step that fetches `w`. -/
def about (s : State) (w : Nat) (keys : Word := 0) (rnd : Byte := 0) : State :=
  { s.withFetchWord 16 w with inputs := [⟨keys, rnd⟩] }

/-- What `f` shows of the state after one step that fetches `w`. -/
def seen {α : Type} (f : State → α) (s : State) (w : Nat) (keys : Word := 0) (rnd : Byte := 0) : Option α :=
  match step (about s w keys rnd) with
  | .next t => some (f t)
  | .fault _ => none
  | .refused _ => none

/-- F1. -/
theorem test_jp : seen (fun t => t.pc) State.reset 0x1ABC = some 0x0ABC := by decide
/-- F4, F5. -/
theorem test_call_last_push :
    seen (fun t => (t.stackTop, t.sp, t.pc, t.popSp.stackTop)) { State.reset with pc := 0x456, sp := 15 } 0x2300 =
      some (0x0000, 16, 0x0300, 0x0456) := by decide
theorem test_call_overflow :
    seen (fun t => (t.status, t.sp, t.pc)) { State.reset with pc := 0x456, sp := 16 } 0x2300 = some (.stackOverflow, 16, 0x0456) := by
  decide
/-- F7, F6. -/
theorem test_ret :
    seen (fun t => (t.sp, t.pc)) { State.reset with sp := 2, stack := State.reset.stack.set 1 0x0ABC } 0x00EE =
      some (1, 0x0ABE) := by decide
theorem test_ret_underflow : seen (fun t => (t.status, t.sp, t.pc)) State.reset 0x00EE = some (.stackUnderflow, 0, 0x0200) := by decide
/-- F9. -/
theorem test_jp_v0 : seen (fun t => t.pc) (withRegs [(0, 0xFF)]) 0xBFFF = some 0x10FE := by decide
/-- F12: a fetch at 0xFFF takes its second byte from 0x000. -/
theorem test_fetch_wraps : seen (fun t => t.pc) { State.reset with pc := 0xFFF } 0x1234 = some 0x0234 := by decide

/-- K1, K2. -/
theorem test_se_nn :
    seen (fun t => t.pc) (withRegs [(0, 5)]) 0x3005 = some 0x204 ∧ seen (fun t => t.pc) (withRegs [(0, 5)]) 0x3006 = some 0x202 := by
  decide
theorem test_sne_nn :
    seen (fun t => t.pc) (withRegs [(0, 5)]) 0x4005 = some 0x202 ∧ seen (fun t => t.pc) (withRegs [(0, 5)]) 0x4006 = some 0x204 := by
  decide
/-- K6. -/
theorem test_se_vy : seen (fun t => t.pc) (withRegs [(1, 7), (2, 8)]) 0x5120 = some 0x202 := by decide
theorem test_sne_vy : seen (fun t => t.pc) (withRegs [(1, 7), (2, 8)]) 0x9120 = some 0x204 := by decide
/-- K12. -/
theorem test_skip_wraps : seen (fun t => t.pc) { State.reset with pc := 0xFFFE } 0x3000 = some 0x0002 := by decide
/-- K10: the low nibble selects the key. -/
theorem test_skp : seen (fun t => (t.pc, t.key)) (withRegs [(3, 0x13)]) 0xE39E 0x0008 = some (0x204, 0x0008) := by decide
/-- K8. -/
theorem test_sknp : seen (fun t => t.pc) (withRegs [(3, 0x0A)]) 0xE3A1 0x0400 = some 0x202 := by decide

/-- A1, A2. -/
theorem test_ld_nn : seen (fun t => (t.reg 0xA, t.pc)) State.reset 0x6A2C = some (0x2C, 0x202) := by decide
theorem test_add_nn : seen (fun t => (t.reg 1, t.reg 0xF)) (withRegs [(1, 0xFF), (0xF, 5)]) 0x7101 = some (0x00, 0x05) := by decide
/-- A4 to A7. -/
theorem test_ld_vy : seen (fun t => t.reg 1) (withRegs [(2, 0x33)]) 0x8120 = some 0x33 := by decide
theorem test_or : seen (fun t => (t.reg 1, t.reg 0xF)) (withRegs [(1, 0xF0), (2, 0x0F), (0xF, 1)]) 0x8121 = some (0xFF, 1) := by decide
theorem test_and : seen (fun t => t.reg 1) (withRegs [(1, 0xF3), (2, 0x3C)]) 0x8122 = some 0x30 := by decide
theorem test_xor : seen (fun t => t.reg 1) (withRegs [(1, 0xFF), (2, 0x0F)]) 0x8123 = some 0xF0 := by decide
/-- S1, A12. -/
theorem test_add_vy : seen (fun t => (t.reg 1, t.reg 0xF)) (withRegs [(1, 250), (2, 10)]) 0x8124 = some (4, 1) := by decide
theorem test_add_vf : seen (fun t => t.reg 0xF) (withRegs [(1, 100), (0xF, 200)]) 0x8F14 = some 1 := by decide
/-- A17, A18. -/
theorem test_sub_borrow : seen (fun t => (t.reg 1, t.reg 0xF)) (withRegs [(1, 5), (2, 10)]) 0x8125 = some (251, 0) := by decide
theorem test_sub_equal : seen (fun t => (t.reg 1, t.reg 0xF)) (withRegs [(1, 9), (2, 9)]) 0x8125 = some (0, 1) := by decide
/-- A22, A23. -/
theorem test_shr : seen (fun t => (t.reg 1, t.reg 0xF, t.reg 7)) (withRegs [(1, 3), (7, 0xFF)]) 0x8176 = some (1, 1, 0xFF) := by decide
theorem test_shr_vf : seen (fun t => t.reg 0xF) (withRegs [(0xF, 2)]) 0x8F06 = some 0 := by decide
/-- A24, A25. -/
theorem test_subn : seen (fun t => (t.reg 1, t.reg 0xF)) (withRegs [(1, 3), (2, 10)]) 0x8127 = some (7, 1) := by decide
theorem test_subn_borrow : seen (fun t => (t.reg 1, t.reg 0xF)) (withRegs [(1, 10), (2, 3)]) 0x8127 = some (249, 0) := by decide
/-- A26, A28. -/
theorem test_shl : seen (fun t => (t.reg 1, t.reg 0xF)) (withRegs [(1, 0xC1)]) 0x812E = some (0x82, 1) := by decide
theorem test_shl_vf : seen (fun t => t.reg 0xF) (withRegs [(0xF, 0x41)]) 0x8F0E = some 0 := by decide
/-- A29. -/
theorem test_rnd : seen (fun t => t.reg 1) State.reset 0xC10F 0 0xA7 = some 0x07 := by decide

/-- M1. -/
theorem test_ld_i : seen (fun t => t.i) State.reset 0xA2F0 = some 0x02F0 := by decide
/-- M4, M5. -/
theorem test_add_i_equal : seen (fun t => (t.i, t.reg 0xF)) { withRegs [(1, 0xFF)] with i := 0x0F00 } 0xF11E = some (0x0FFF, 0) := by decide
theorem test_add_i_wraps : seen (fun t => (t.i, t.reg 0xF)) { withRegs [(1, 0x01)] with i := 0xFFFF } 0xF11E = some (0x0000, 1) := by decide
/-- M9, M10. -/
theorem test_ld_f : seen (fun t => t.i) (withRegs [(0, 0x0F)]) 0xF029 = some 0x004B := by decide
theorem test_ld_f_invalid :
    seen (fun t => (t.status, t.i, t.pc)) { withRegs [(0, 0x10)] with i := 0x0123 } 0xF029 = some (.invalidFontIndex, 0x0123, 0x0200) := by
  decide
/-- M12, S4. -/
theorem test_ld_b_wraps : seen (fun t => t.memReads 0xFFE 3) { withRegs [(1, 123)] with i := 0xFFE } 0xF133 = some [1, 2, 3] := by decide
theorem test_ld_b : seen (fun t => (t.memReads 0x300 3, t.i)) { withRegs [(1, 246)] with i := 0x300 } 0xF133 = some ([2, 4, 6], 0x300) := by
  decide
/-- M13. -/
theorem test_st_regs :
    seen (fun t => (t.memReads 0x300 4, t.i)) { withRegs [(0, 0x11), (1, 0x22), (2, 0x33), (3, 0x44)] with i := 0x300 } 0xF255 =
      some ([0x11, 0x22, 0x33, 0x00], 0x300) := by decide
/-- M15, M17. -/
theorem test_ld_regs :
    seen (fun t => (t.reg 0, t.reg 1)) { State.reset.storeBytes 0x300 [0x9A, 0xBC] with i := 0x300 } 0xF065 = some (0x9A, 0x00) := by decide
theorem test_ld_regs_truncates :
    seen (fun t => (t.reg 0, t.i)) { State.reset.storeBytes 0x234 [0x77] with i := 0x1234 } 0xF065 = some (0x77, 0x1234) := by decide

/-- G1. -/
theorem test_cls :
    seen (fun t => (t.pixel 5 9, t.drawFlag)) { State.reset with gfx := blankGfx.flip 5 9 } 0x00E0 = some (false, true) := by decide
/-- G4: most significant bit first, and wraparound in x. -/
theorem test_drw_wraps :
    seen (fun t => (t.pixel 63 31, t.pixel 0 31, t.pixel 1 31, t.reg 0xF))
      { (withRegs [(1, 63), (2, 31)]).storeBytes 0x300 [0xC0] with i := 0x300 } 0xD121 = some (true, true, false, 0) := by decide
/-- G9: one of two pixels collides. -/
theorem test_drw_collides :
    seen (fun t => (t.pixel 0 0, t.pixel 1 0, t.reg 0xF, t.drawFlag))
      { State.reset.storeBytes 0x300 [0xC0] with i := 0x300, gfx := blankGfx.flip 0 0 } 0xD121 = some (false, true, 1, true) := by decide

/-- T1. -/
theorem test_ld_dt : seen (fun t => (t.reg 1, t.dt)) { State.reset with dt := 0x2A } 0xF107 = some (0x2A, 0x29) := by decide
/-- T2, T3. -/
theorem test_set_dt : seen (fun t => t.dt) (withRegs [(0, 3)]) 0xF015 = some 2 := by decide
theorem test_set_dt_zero : seen (fun t => t.dt) { State.reset with dt := 9 } 0xF015 = some 0 := by decide
/-- T4, T5. -/
theorem test_set_st : seen (fun t => (t.st, t.soundTriggered)) (withRegs [(0, 1)]) 0xF018 = some (0, true) := by decide
theorem test_set_st_cancels : seen (fun t => (t.st, t.soundTriggered)) { State.reset with st := 1 } 0xF018 = some (0, false) := by decide
/-- T10, T11. -/
theorem test_ld_k_waits :
    seen (fun t => (t.status, t.pc, t.dt, t.st, t.soundTriggered)) { State.reset with dt := 7, st := 1, drawFlag := true } 0xF50A =
      some (.waitingForKey, 0x0200, 7, 1, false) := by decide
theorem test_ld_k :
    seen (fun t => (t.reg 5, t.pc, t.key, t.dt, t.st, t.soundTriggered)) { State.reset with dt := 7, st := 1 } 0xF50A 0x0088 =
      some (0x03, 0x0202, 0x0088, 6, 0, true) := by decide
/-- T14. -/
theorem test_illegal_word_does_not_tick :
    seen (fun t => (t.status, t.pc, t.dt, t.st)) { State.reset with dt := 7, st := 1 } 0x0000 = some (.unknownOpcode, 0x0200, 7, 1) := by
  decide
/-- T15, T16. -/
theorem test_draw_flag_cleared :
    seen (fun t => t.drawFlag) { State.reset with drawFlag := true } 0x6000 = some false ∧
    seen (fun t => t.drawFlag) { State.reset with drawFlag := true } 0xF50A = some false := by decide

/-! ## Reset, load and codes -/

/-- 20_memory.md R38: the glyph of digit 0 and the last byte of digit F; 10_state.md R27: zero after them. -/
theorem test_font_placed : State.reset.memReads 0 5 = [0xF0, 0x90, 0x90, 0x90, 0xF0] ∧ State.reset.memReads 0x4F 2 = [0x80, 0x00] := by decide

/-- B3. -/
theorem test_load_program : ∃ t, State.reset.loadProgram [0x12, 0x00] = .next t ∧ t.memReads 0x200 2 = [0x12, 0x00] ∧ t.boot = .loaded :=
  ⟨_, rfl, by decide⟩
/-- B6. -/
theorem test_load_too_large : State.reset.loadProgram (List.replicate 3585 0x00#8) = .fault .romTooLarge := by
  rw [State.loadProgram, test_program_too_long]; rfl

/-- 60_exceptions.md R170. -/
theorem test_codes :
    [Status.running, .waitingForKey, .unknownOpcode, .stackOverflow, .stackUnderflow, .invalidFontIndex].map Status.code = [0, 1, 2, 3, 4, 5] ∧
    Fault.romTooLarge.code = 6 := by decide

/-! ## Witnesses: concrete cases that meet the hypotheses of the statements -/

theorem witness_decode_ok : decode 0x8AB4 = .ok (.addVxVy 0xA 0xB) ∧ decode 0x81F6 = .ok (.shrVx 0x1 0xF) := by decide

theorem witness_table_row :
    (⟨0x8004#16, 0xF00F#16⟩ : TableRow) ∈ opcodeTable ∧ 0x8AB4#16 &&& 0xF00F#16 = 0x8004#16 := by decide

/-- StepLatchesItsInputs: a step answers; an input lined up; none lined up. -/
theorem witness_step_latches :
    (∃ t, step (about State.reset 0x6A2C 0x0088 0x11) = .next t) ∧
    (about State.reset 0x6A2C 0x0088 0x11).inputs = ⟨0x0088, 0x11⟩ :: [] ∧ State.reset.inputs = [] :=
  ⟨⟨_, rfl⟩, rfl, rfl⟩

/-- StepRunsTheDecodedInstruction, with an instruction that completes and with one that raises. -/
theorem witness_step_runs :
    (∃ (s t : State), decode s.fetchWord = .ok (.ldVxNn 0xA 0x2C) ∧
      exec (.ldVxNn 0xA 0x2C) { s with key := s.nextInput.pressedKeys, rnd := s.nextInput.rnd, drawFlag := false, soundTriggered := false,
                                       inputs := s.inputs.tail, steps := s.steps + 1, boot := .running } = .next t ∧ t.status = .running) ∧
    ∃ (s t : State), decode s.fetchWord = .ok .ret ∧
      exec .ret { s with key := s.nextInput.pressedKeys, rnd := s.nextInput.rnd, drawFlag := false, soundTriggered := false,
                         inputs := s.inputs.tail, steps := s.steps + 1, boot := .running } = .next t ∧ t.status ≠ .running :=
  ⟨⟨about State.reset 0x6A2C, _, by decide, rfl, by decide⟩, ⟨about State.reset 0x00EE, _, by decide, rfl, by decide⟩⟩

/-- IllegalWordRaisesUnknownOpcode, AbortedStepChangesNothing, ErrorRepeatsForEver: the first step from reset (B2). -/
theorem witness_illegal_word : wordLegal State.reset.fetchWord = false := by decide
theorem witness_error_step :
    ∃ t, step (about State.reset 0x0000) = .next t ∧ t.status ≠ .running ∧ t.status.isError = true := ⟨_, rfl, by decide⟩

/-- StepKeepsStackRangeAndMemoryForm, at the top of the range of `sp`, with a listed byte. -/
theorem witness_invariant_step :
    ∃ s t, s.Inv ∧ s.sp = 15 ∧ s.mem ≠ [] ∧ step s = .next t := ⟨about { State.reset with sp := 15 } 0x2300, _, by decide, rfl, by decide, rfl⟩

/-- WaitEndsExactlyWithAPressedKey: a wait, followed by an input without and by one with a key. -/
theorem witness_wait :
    (∃ s t, step s = .next t ∧ t.status = .waitingForKey ∧ t.nextInput.pressedKeys = 0) ∧
    ∃ s t, step s = .next t ∧ t.status = .waitingForKey ∧ t.nextInput.pressedKeys ≠ 0 :=
  ⟨⟨{ about State.reset 0xF50A with inputs := [⟨0, 0⟩, ⟨0, 0⟩] }, _, rfl, by decide, by decide⟩,
   ⟨{ about State.reset 0xF50A with inputs := [⟨0, 0⟩, ⟨0x8000, 0⟩] }, _, rfl, by decide, by decide⟩⟩

/-- DrawFlagSet..., SoundTriggers..., TimersCount...: a step that draws, one that beeps, one that completes without writing a timer, one
that does not complete. -/
theorem witness_steps :
    (∃ t, step (about State.reset 0x00E0) = .next t ∧ t.drawFlag = true) ∧
    (∃ t, step (about { State.reset with st := 1 } 0x6000) = .next t ∧ t.soundTriggered = true) ∧
    (∃ t, step (about { State.reset with dt := 255 } 0x6000) = .next t ∧ t.status = .running ∧ t.dt = 254) ∧
    (∀ x, decode (about { State.reset with dt := 255 } 0x6000).fetchWord ≠ .ok (.ldDtVx x)) ∧
    (∀ x, decode (about { State.reset with dt := 255 } 0x6000).fetchWord ≠ .ok (.ldStVx x)) ∧
    ∃ t, step (about { State.reset with dt := 7 } 0x0000) = .next t ∧ t.status ≠ .running :=
  ⟨⟨_, rfl, by decide⟩, ⟨_, rfl, by decide⟩, ⟨_, rfl, by decide, by decide⟩, by decide, by decide, ⟨_, rfl, by decide⟩⟩

/-- TimerInstructionsAndTheTickOfTheirStep, each of the three. -/
theorem witness_timer_fetches :
    decode (about State.reset 0xF107).fetchWord = .ok (.ldVxDt 1) ∧ decode (about State.reset 0xF015).fetchWord = .ok (.ldDtVx 0) ∧
    decode (about State.reset 0xFF18).fetchWord = .ok (.ldStVx 0xF) := by decide

/-- PcAdvancesByTwoUnlessControlTransfer: an instruction that completes and sets no target, a skip, one that raises. -/
theorem witness_pc_advances :
    (∃ t, exec (.ldVxNn 0 0) State.reset = .next t ∧ t.status = .running) ∧ ¬ setsPc (.ldVxNn 0 0) ∧
    (∃ t, exec (.seVxNn 0 0) State.reset = .next t ∧ t.status = .running) ∧ ¬ setsPc (.seVxNn 0 0) ∧ isSkip (.seVxNn 0 0) ∧
    ∃ t, exec .ret State.reset = .next t ∧ t.status ≠ .running :=
  ⟨⟨_, rfl, rfl⟩, by simp [setsPc], ⟨_, rfl, rfl⟩, by simp [setsPc], by simp [isSkip], ⟨_, rfl, by decide⟩⟩

/-- EachPartHasOnlyItsWriters, RandomByteReachesOnlyRnd, KeysReachOnlyKeyInstructions: 8XY4 is no writer of the parts and reads neither
input. -/
theorem witness_writes_only_registers :
    (∃ t, exec (.addVxVy 1 2) State.reset = .next t) ∧ (∀ x, Instr.addVxVy 1 2 ≠ .ldBVx x) ∧ (∀ x, Instr.addVxVy 1 2 ≠ .ldMemVx x) ∧
    (∀ n, Instr.addVxVy 1 2 ≠ .ldINnn n) ∧ (∀ x, Instr.addVxVy 1 2 ≠ .addIVx x) ∧ (∀ x, Instr.addVxVy 1 2 ≠ .ldFVx x) ∧
    (∀ n, Instr.addVxVy 1 2 ≠ .call n) ∧ Instr.addVxVy 1 2 ≠ .ret ∧ (∀ x, Instr.addVxVy 1 2 ≠ .ldDtVx x) ∧
    (∀ x, Instr.addVxVy 1 2 ≠ .ldStVx x) ∧ Instr.addVxVy 1 2 ≠ .cls ∧ (∀ x y n, Instr.addVxVy 1 2 ≠ .drwVxVyN x y n) ∧
    (∀ x nn, Instr.addVxVy 1 2 ≠ .rndVxNn x nn) ∧ (∀ x, Instr.addVxVy 1 2 ≠ .skpVx x) ∧ (∀ x, Instr.addVxVy 1 2 ≠ .sknpVx x) ∧
    ∀ x, Instr.addVxVy 1 2 ≠ .ldVxK x := by
  refine ⟨⟨_, rfl⟩, ?_⟩
  simp

/-- RegistersAndFlagHaveOnlyTheirWriters: a register that is not written, and a flag-defining instruction. -/
theorem witness_registers : (∃ t, exec (.addVxVy 1 2) State.reset = .next t) ∧ ¬ mayWriteReg (.addVxVy 1 2) 2 ∧ definesFlag (.addVxVy 1 2) :=
  ⟨⟨_, rfl⟩, by simp [mayWriteReg], trivial⟩

/-- NextFetchSeesStoredRegisters, at both ends of the range of `x` and across the end of memory. -/
theorem witness_next_fetch :
    ((1 : Reg).toNat ≥ 1 ∧ (0x0202#16).toNat % 4096 = (State.reset.pc.toNat + 2) % 4096) ∧
    ((0xF : Reg).toNat ≥ 1 ∧ (0x1000#16).toNat % 4096 = ((0x0FFE#16).toNat + 2) % 4096) := by decide

/-- CanonicalMemoriesThatReadAlikeAreEqual: a non-empty memory in canonical form, and one that is not in it. -/
theorem witness_canonical :
    Memory.wf [(0x200, 0x12#8), (0xFFF, 0x01#8)] ∧ ¬ Memory.wf [(0x200, 0x00#8)] ∧ ¬ Memory.wf [(1, 0x12#8), (0, 0x12#8)] := by decide

/-- LoadProgramCopiesTheBytes, LoadProgramRejects: the longest program, one byte more, and a load out of order. -/
theorem witness_load :
    State.reset.boot = .fresh ∧ (List.replicate 3584 0xAB#8).length ≤ 3584 ∧ (List.replicate 3585 0xAB#8).length > 3584 ∧
    (3583 < (List.replicate 3584 0xAB#8).length) ∧ { State.reset with boot := .loaded }.boot ≠ .fresh := by
  rw [List.length_replicate, List.length_replicate]; decide

/-- CallPushesItsAddressOrOverflows, ReturnPopsOrUnderflows: the ends of the range of `sp`. -/
theorem witness_stack_range :
    (0#5).toNat < 16 ∧ (15#5).toNat < 16 ∧ (16#5).toNat = 16 ∧ (1 ≤ (1#5).toNat ∧ (1#5).toNat ≤ 16) ∧
    (1 ≤ (16#5).toNat ∧ (16#5).toNat ≤ 16) ∧ (0#5).toNat = 0 := by decide

/-- ReturnGoesToTheInstructionAfterTheCall, at the last push. -/
theorem witness_call_and_return :
    ∃ s t t' : State, s.sp.toNat < 16 ∧ exec (.call 0x300) s = .next t ∧ t'.stack = t.stack ∧ t'.sp = t.sp ∧ t'.pc = 0x0312 :=
  ⟨{ State.reset with sp := 15 }, { State.reset with sp := 15 }.pushPc.completed 0x0300,
   { State.reset with sp := 15 }.pushPc.completed 0x0312, by decide, rfl, rfl, rfl, rfl⟩

/-- The statements that set VF apart: a destination, and coordinates, other than register F. -/
theorem witness_not_vf : (0 : Reg) ≠ 0xF#4 ∧ (0xE : Reg) ≠ 0xF#4 := by decide

/-- LoadFontAddressOrInvalidIndex, LoadKeyWaitsOrTakesTheLowest: both sides of each boundary. -/
theorem witness_font_index : ((withRegs [(0, 0x0F)]).reg 0).toNat ≤ 0xF ∧ ((withRegs [(0, 0x10)]).reg 0).toNat > 0xF := by decide
theorem witness_keys : { State.reset with key := 0x8000 }.key ≠ 0 ∧ State.reset.key = 0 := by decide

/-- DrawFlipsTheSpritesPixels: a pixel a sprite lands on and one it does not. -/
theorem witness_sprite_lands :
    ∃ s : State, SpriteLandsOn s 63 31 1 0 31 ∧ ¬ SpriteLandsOn s 63 31 0 0 31 :=
  ⟨{ State.reset.storeBytes 0x300 [0xC0] with i := 0x300 }, ⟨0, 1, by decide, by decide, by decide, by decide, by decide⟩,
   fun ⟨_, _, h, _⟩ => absurd h (Nat.not_lt_zero _)⟩

/-- SkipsExactlyIf: both conditions occur. -/
theorem witness_skip_conditions : State.reset.reg 0 = 0x00#8 ∧ State.reset.reg 0 ≠ 0x01#8 := by decide

end Sys2Proof.Machine.Tests
end

/-! SUPPORT. The rules of the whole machine (10_state.md): what one instruction can do, said once, and the statements that follow from it. -/

namespace Sys2Proof.Machine

/-! ## What an instruction does, in three parts

An instruction either aborts, and then only its status is new, or it completes: it writes its destinations and then `pc`, once
(40_step_cycle.md R73, R74).  `abortOf` says when, `writtenBy` what and `targetOf` where to; `exec_of_abort` and `exec_of_completes` tie the
three to `exec`. -/

/-- The status with which the instruction aborts, if it does: the two stack errors, the font index error and the wait
(60_exceptions.md R172 to R174, 46_timer_key.md R161). -/
def abortOf (i : Instr) (s : State) : Option Status :=
  match i with
  | .ret => if s.sp = 0#5 then some .stackUnderflow else none
  | .call _ => if s.sp = 16#5 then some .stackOverflow else none
  | .ldFVx x => if (s.reg x).toNat > 0x0F then some .invalidFontIndex else none
  | .ldVxK _ => if lowestKey s.key = none then some .waitingForKey else none
  | _ => none

/-- The frame buffer and the collision DXYN draws (45_display.md R151). -/
def drawnBy (x y : Reg) (n : BitVec 4) (s : State) : Canvas :=
  drawSprite (s.reg x) (s.reg y) (s.memReads s.i.toNat n.toNat) s.gfx

/-- The state with everything written that the instruction writes when it completes, but for `pc` and the status. -/
def writtenBy (i : Instr) (s : State) : State :=
  match i with
  | .cls => s.shown blankGfx
  | .ret => s.popSp
  | .call _ => s.pushPc
  | .jp _ | .jpV0Nnn _ => s
  | .seVxNn _ _ | .sneVxNn _ _ | .seVxVy _ _ | .sneVxVy _ _ | .skpVx _ | .sknpVx _ => s
  | .ldVxNn x nn => s.setReg x nn
  | .addVxNn x nn => s.setReg x (s.reg x + nn)
  | .ldVxVy x y => s.setReg x (s.reg y)
  | .orVxVy x y => s.setReg x (s.reg x ||| s.reg y)
  | .andVxVy x y => s.setReg x (s.reg x &&& s.reg y)
  | .xorVxVy x y => s.setReg x (s.reg x ^^^ s.reg y)
  | .addVxVy x y => (s.setReg x (s.reg x + s.reg y)).setFlag (carryOut (s.reg x) (s.reg y))
  | .subVxVy x y => (s.setReg x (s.reg x - s.reg y)).setFlag (noBorrow (s.reg x) (s.reg y))
  | .shrVx x _ => (s.setReg x (s.reg x >>> 1)).setFlag (shiftedOutLow (s.reg x))
  | .subnVxVy x y => (s.setReg x (s.reg y - s.reg x)).setFlag (noBorrow (s.reg y) (s.reg x))
  | .shlVx x _ => (s.setReg x (s.reg x <<< 1)).setFlag (shiftedOutHigh (s.reg x))
  | .rndVxNn x nn => s.setReg x (s.rnd &&& nn)
  | .drwVxVyN x y n => (s.shown (drawnBy x y n s).gfx).setFlag (drawnBy x y n s).hit
  | .ldINnn nnn => s.setI (zextNnn nnn)
  | .addIVx x => (s.setI (s.i + zextByte (s.reg x))).setFlag (beyondAddressRange s.i (s.reg x))
  | .ldFVx x => s.setI (zextByte (s.reg x) * 5#16)
  | .ldBVx x => s.storeBytes s.i.toNat (decimalDigits (s.reg x))
  | .ldMemVx x => s.storeBytes s.i.toNat (s.regsBelow (x.toNat + 1))
  | .ldVxMem x => s.loadRegs s.i.toNat (x.toNat + 1)
  | .ldVxDt x => s.setReg x s.dt
  | .ldVxK x => s.setReg x (BitVec.ofNat 8 ((lowestKey s.key).getD 0))
  | .ldDtVx x => s.setDt (s.reg x)
  | .ldStVx x => s.setSt (s.reg x)

/-- Where the instruction goes when it completes: a jump, call or return to its target, a skip over the next instruction if its condition
holds, every other instruction to the next one (10_state.md R14). -/
def targetOf (i : Instr) (s : State) : Word :=
  match i with
  | .ret => s.popSp.stackTop + 2
  | .jp nnn | .call nnn => zextNnn nnn
  | .jpV0Nnn nnn => zextNnn nnn + zextByte (s.reg 0x0#4)
  | .seVxNn x nn => if s.reg x == nn then s.pc + 4 else s.pc + 2
  | .sneVxNn x nn => if s.reg x != nn then s.pc + 4 else s.pc + 2
  | .seVxVy x y => if s.reg x == s.reg y then s.pc + 4 else s.pc + 2
  | .sneVxVy x y => if s.reg x != s.reg y then s.pc + 4 else s.pc + 2
  | .skpVx x => if keyPressed s.key (keyIndex (s.reg x)).toNat then s.pc + 4 else s.pc + 2
  | .sknpVx x => if !keyPressed s.key (keyIndex (s.reg x)).toNat then s.pc + 4 else s.pc + 2
  | _ => s.pc + 2

section

variable {i : Instr} {s t : State} {e : Status}

theorem exec_of_abort (h : abortOf i s = some e) : exec i s = .next (s.raised e) := by
  cases i with
  | ret | call nnn | ldFVx x =>
    obtain ⟨hc, ⟨⟩⟩ := Option.ite_none_right_eq_some.1 h
    exact congrArg _ (if_pos hc)
  | ldVxK x =>
    obtain ⟨hc, ⟨⟩⟩ := Option.ite_none_right_eq_some.1 h
    simp only [exec, execLdVxK, hc]; rfl
  | _ => cases h

theorem exec_of_completes (h : abortOf i s = none) :
    exec i s = .next ((writtenBy i s).completed (targetOf i s)) := by
  cases i with
  | ret | call nnn | ldFVx x => exact congrArg _ (if_neg (by simpa [abortOf] using h))
  | ldVxK x =>
    obtain ⟨k, hk⟩ := Option.ne_none_iff_exists'.1 (by simpa [abortOf] using h : lowestKey s.key ≠ none)
    simp only [exec, execLdVxK, writtenBy, hk]; rfl
  | ldVxMem x => simp [exec, execLdVxMem, writtenBy, targetOf, State.advanced]
  | _ => rfl

/-- What an instruction can do: abort, or complete. -/
theorem exec_cases (h : exec i s = .next t) :
    (∃ e, abortOf i s = some e ∧ t = s.raised e) ∨
    (abortOf i s = none ∧ t = (writtenBy i s).completed (targetOf i s)) := by
  cases ha : abortOf i s with
  | some e => exact .inl ⟨e, rfl, by simpa [exec_of_abort ha] using h.symm⟩
  | none => exact .inr ⟨rfl, by simpa [exec_of_completes ha] using h.symm⟩

/-- No abort has the status of a step that completes. -/
theorem abortOf_ne_running (h : abortOf i s = some e) : e ≠ .running := by
  cases i with
  | ret | call _ | ldFVx _ | ldVxK _ =>
    obtain ⟨-, ⟨⟩⟩ := Option.ite_none_right_eq_some.1 h
    decide
  | _ => cases h

/-! ## The invariant (10_state.md R17, log 7) -/

/-- Only FX33 and FX55 write memory. -/
theorem writtenBy_mem (h33 : ∀ x, i ≠ .ldBVx x) (h55 : ∀ x, i ≠ .ldMemVx x) : (writtenBy i s).mem = s.mem := by
  cases i with
  | ldBVx x => exact absurd rfl (h33 x)
  | ldMemVx x => exact absurd rfl (h55 x)
  | _ => simp [writtenBy]

/-- Only 2NNN and 00EE write the stack pointer. -/
theorem writtenBy_sp (hcall : ∀ n, i ≠ .call n) (hret : i ≠ .ret) : (writtenBy i s).sp = s.sp := by
  cases i with
  | call n => exact absurd rfl (hcall n)
  | ret => exact absurd rfl hret
  | _ => simp [writtenBy]

theorem writtenBy_mem_wf (h : s.mem.wf) : (writtenBy i s).mem.wf := by
  cases i with
  | ldBVx x | ldMemVx x => exact State.wf_storeBytes _ _ _ h
  | _ => rwa [writtenBy_mem (by simp) (by simp)]

/-- 2NNN pushes only below 16 entries and 00EE pops only above 0, since they abort otherwise. -/
theorem writtenBy_sp_le (ha : abortOf i s = none) (h : s.sp.toNat ≤ 16) : (writtenBy i s).sp.toNat ≤ 16 := by
  cases i with
  | call n =>
    have hne : s.sp ≠ 16#5 := by simpa [abortOf] using ha
    simp only [writtenBy, State.pushPc_sp]
    bv_omega
  | ret =>
    have hne : s.sp ≠ 0#5 := by simpa [abortOf] using ha
    simp only [writtenBy, State.popSp_sp]
    bv_omega
  | _ => rwa [writtenBy_sp (by simp) (by simp)]

theorem exec_keeps_inv (hs : s.Inv) (h : exec i s = .next t) : t.Inv := by
  obtain ⟨hmem, hsp⟩ := hs
  obtain ⟨e, -, rfl⟩ | ⟨ha, rfl⟩ := exec_cases h
  · exact ⟨hmem, hsp⟩
  · exact ⟨writtenBy_mem_wf hmem, writtenBy_sp_le ha hsp⟩

/-! ## The program counter (10_state.md R14) -/

theorem targetOf_eq (h : ¬ setsPc i) : targetOf i s = s.pc + 2 ∨ (isSkip i ∧ targetOf i s = s.pc + 4) := by
  cases i with
  | ret | jp n | call n | jpV0Nnn n => exact absurd (by simp [setsPc]) h
  | seVxNn x nn | sneVxNn x nn | seVxVy x y | sneVxVy x y | skpVx x | sknpVx x =>
    simp only [targetOf]
    split
    · exact .inr ⟨by simp [isSkip], rfl⟩
    · exact .inl rfl
  | _ => exact .inl rfl

/-! ## The other parts and their writers (10_state.md R10) -/

theorem writtenBy_i (hnnn : ∀ n, i ≠ .ldINnn n) (hadd : ∀ x, i ≠ .addIVx x) (hfont : ∀ x, i ≠ .ldFVx x) :
    (writtenBy i s).i = s.i := by
  cases i with
  | ldINnn n => exact absurd rfl (hnnn n)
  | addIVx x => exact absurd rfl (hadd x)
  | ldFVx x => exact absurd rfl (hfont x)
  | _ => simp [writtenBy]

theorem writtenBy_stack (hcall : ∀ n, i ≠ .call n) : (writtenBy i s).stack = s.stack := by
  cases i with
  | call n => exact absurd rfl (hcall n)
  | _ => simp [writtenBy]

theorem writtenBy_dt (h : ∀ x, i ≠ .ldDtVx x) : (writtenBy i s).dt = s.dt := by
  cases i with
  | ldDtVx x => exact absurd rfl (h x)
  | _ => simp [writtenBy]

theorem writtenBy_st (h : ∀ x, i ≠ .ldStVx x) : (writtenBy i s).st = s.st := by
  cases i with
  | ldStVx x => exact absurd rfl (h x)
  | _ => simp [writtenBy]

theorem writtenBy_keepsDisplay (hcls : i ≠ .cls) (hdrw : ∀ x y n, i ≠ .drwVxVyN x y n) : KeepsDisplay s (writtenBy i s) := by
  cases i with
  | cls => exact absurd rfl hcls
  | drwVxVyN x y n => exact absurd rfl (hdrw x y n)
  | _ => simp [KeepsDisplay, writtenBy]

theorem writtenBy_keepsPorts : KeepsPorts s (writtenBy i s) := by
  cases i <;> simp [KeepsPorts, writtenBy]

/-- 00E0 and DXYN raise `draw_flag`, every other instruction leaves it as it is, whether it completes or aborts (10_state.md R20). -/
theorem exec_drawFlag (h : exec i s = .next t) :
    t.drawFlag = true ↔ s.drawFlag = true ∨ i = .cls ∨ ∃ x y n, i = .drwVxVyN x y n := by
  by_cases hd : i = .cls ∨ ∃ x y n, i = .drwVxVyN x y n
  · have ht : t.drawFlag = true := by
      obtain ⟨e, ha, rfl⟩ | ⟨-, rfl⟩ := exec_cases h
      · obtain rfl | ⟨x, y, n, rfl⟩ := hd <;> cases ha
      · obtain rfl | ⟨x, y, n, rfl⟩ := hd <;> rfl
    simp [ht, hd]
  · have ht : t.drawFlag = s.drawFlag := by
      obtain ⟨hcls, hdrw⟩ := not_or.1 hd
      obtain ⟨e, -, rfl⟩ | ⟨-, rfl⟩ := exec_cases h
      · rfl
      · exact (writtenBy_keepsDisplay hcls fun x y n hi => hdrw ⟨x, y, n, hi⟩).2
    simp [ht, hd]

/-! ## Registers and the flag (10_state.md R12) -/

theorem writtenBy_reg {r : Reg} (h : ¬ mayWriteReg i r) : (writtenBy i s).reg r = s.reg r := by
  cases i with
  | ldVxNn x _ | addVxNn x _ | ldVxVy x _ | orVxVy x _ | andVxVy x _ | xorVxVy x _ | rndVxNn x _ | ldVxDt x | ldVxK x =>
    exact (State.reg_setReg _ _ _ _).trans (if_neg h)
  | addVxVy x _ | subVxVy x _ | shrVx x _ | subnVxVy x _ | shlVx x _ =>
    obtain ⟨hx, hf⟩ := not_or.1 h
    simp [writtenBy, hx, hf]
  | drwVxVyN _ _ _ | addIVx _ => exact (State.reg_setFlag _ _ _).trans (if_neg h)
  | ldVxMem x => exact (State.reg_loadRegs _ _ _ _).trans (if_neg fun hlt => h (Nat.le_of_lt_succ hlt))
  | _ => simp [writtenBy]

theorem flagByte_eq (f : Bool) : flagByte f = 0x00#8 ∨ flagByte f = 0x01#8 := by
  cases f <;> simp [flagByte]

/-- A flag-defining instruction never aborts, and the flag is the last thing it writes. -/
theorem writtenBy_of_definesFlag (h : definesFlag i) :
    abortOf i s = none ∧ ∃ u f, writtenBy i s = State.setFlag u f := by
  cases i with
  | addVxVy _ _ | subVxVy _ _ | shrVx _ _ | subnVxVy _ _ | shlVx _ _ | drwVxVyN _ _ _ | addIVx _ => exact ⟨rfl, _, _, rfl⟩
  | _ => exact h.elim

/-! ## The inputs of the step (10_state.md R21, R22): the key vector and the random byte commute with the three parts -/

theorem abortOf_rnd (b : Byte) : abortOf i { s with rnd := b } = abortOf i s := by
  cases i <;> rfl

theorem targetOf_rnd (b : Byte) : targetOf i { s with rnd := b } = targetOf i s := by
  cases i <;> rfl

theorem writtenBy_rnd (b : Byte) (h : ∀ x nn, i ≠ .rndVxNn x nn) :
    writtenBy i { s with rnd := b } = { writtenBy i s with rnd := b } := by
  cases i with
  | rndVxNn x nn => exact absurd rfl (h x nn)
  | _ => rfl

theorem abortOf_key (k : Word) (h : ∀ x, i ≠ .ldVxK x) : abortOf i { s with key := k } = abortOf i s := by
  cases i with
  | ldVxK x => exact absurd rfl (h x)
  | _ => rfl

theorem targetOf_key (k : Word) (hskp : ∀ x, i ≠ .skpVx x) (hsknp : ∀ x, i ≠ .sknpVx x) :
    targetOf i { s with key := k } = targetOf i s := by
  cases i with
  | skpVx x => exact absurd rfl (hskp x)
  | sknpVx x => exact absurd rfl (hsknp x)
  | _ => rfl

theorem writtenBy_key (k : Word) (h : ∀ x, i ≠ .ldVxK x) :
    writtenBy i { s with key := k } = { writtenBy i s with key := k } := by
  cases i with
  | ldVxK x => exact absurd rfl (h x)
  | _ => rfl

end

/-! ## Reset (10_state.md R27) -/

theorem State.memRead_reset {a : Nat} (h : a < memorySize) : State.reset.memRead a = font.getD a 0x00#8 :=
  congrArg unlistedByte (Nat.mod_eq_of_lt h)

/-! ## The statements -/

/-- Settles O11: the instruction keeps the invariant, and latching, raising and ticking write neither memory nor `sp`. -/
theorem stepKeepsStackRangeAndMemoryForm : Obligations.StepKeepsStackRangeAndMemoryForm := by
  intro s t hs h
  obtain ⟨r, -, rfl⟩ | ⟨i, u, -, hu, rfl⟩ := step_cases s t h
  · exact hs
  · have hi : u.Inv := exec_keeps_inv (s := s.begun) hs hu
    simpa only [State.Inv, State.ended_mem, State.ended_sp] using hi

/-- Settles O7: the latch comes first, and nothing after it writes the four fields. -/
theorem stepLatchesItsInputs : Obligations.StepLatchesItsInputs := by
  refine ⟨fun s t h => ?_, fun s inp rest h => by rw [State.nextInput, h], fun s h => by rw [State.nextInput, h]⟩
  obtain ⟨r, -, rfl⟩ | ⟨i, u, -, hu, rfl⟩ := step_cases s t h
  · exact ⟨rfl, rfl, rfl, rfl⟩
  · simp only [State.ended_key, State.ended_rnd, State.ended_inputs, State.ended_steps]
    obtain ⟨e, -, rfl⟩ | ⟨-, rfl⟩ := exec_cases hu
    · exact ⟨rfl, rfl, rfl, rfl⟩
    · obtain ⟨hkey, hrnd, -, hinputs, hsteps, -⟩ := writtenBy_keepsPorts (i := i) (s := s.begun)
      exact ⟨hkey, hrnd, hinputs, hsteps⟩

/-- Settles O16: `draw_flag` is 0 when the instruction begins, so it is 1 after the step exactly if the instruction raises it. -/
theorem drawFlagSetExactlyByDisplayInstructions : Obligations.DrawFlagSetExactlyByDisplayInstructions := by
  intro s t h
  obtain ⟨r, hd, rfl⟩ | ⟨i, u, hd, hu, rfl⟩ := step_cases s t h
  · simp [hd]
  · simp [hd, exec_drawFlag hu]

/-- Settles O20: where a completing instruction goes, and that an aborting one keeps `pc`. -/
theorem pcAdvancesByTwoUnlessControlTransfer : Obligations.PcAdvancesByTwoUnlessControlTransfer := by
  intro i s t h
  obtain ⟨e, ha, rfl⟩ | ⟨-, rfl⟩ := exec_cases h
  · exact ⟨fun hr => absurd hr (abortOf_ne_running ha), fun _ => rfl⟩
  · exact ⟨fun _ hi => targetOf_eq hi, fun hr => absurd rfl hr⟩

/-- Settles O21: an aborting instruction writes none of the parts, a completing one those of `writtenBy`. -/
theorem eachPartHasOnlyItsWriters : Obligations.EachPartHasOnlyItsWriters := by
  intro i s t h
  obtain ⟨e, -, rfl⟩ | ⟨-, rfl⟩ := exec_cases h
  · simp [KeepsMemory, KeepsDisplay, KeepsPorts]
  · exact ⟨fun h33 h55 a => congrArg (Memory.read · _) (writtenBy_mem h33 h55), writtenBy_i, writtenBy_stack, writtenBy_sp,
      writtenBy_dt, writtenBy_st, writtenBy_keepsDisplay, writtenBy_keepsPorts⟩

/-- Settles O22: the registers outside `mayWriteReg` are kept, and a flag-defining instruction completes with VF written last. -/
theorem registersAndFlagHaveOnlyTheirWriters : Obligations.RegistersAndFlagHaveOnlyTheirWriters := by
  intro i s t h
  obtain ⟨e, ha, rfl⟩ | ⟨-, rfl⟩ := exec_cases h
  · refine ⟨fun r _ => rfl, fun hf => ?_⟩
    have hn := (writtenBy_of_definesFlag (s := s) hf).1
    rw [ha] at hn
    cases hn
  · refine ⟨fun r hr => writtenBy_reg hr, fun hf => ?_⟩
    obtain ⟨-, u, f, hu⟩ := writtenBy_of_definesFlag (s := s) hf
    simpa [hu] using flagByte_eq f

/-- Settles O23: whether the instruction aborts, what it writes and where it goes do not depend on the random byte. -/
theorem randomByteReachesOnlyRnd : Obligations.RandomByteReachesOnlyRnd := by
  intro i s b h
  cases ha : abortOf i s with
  | some e => exact ⟨_, exec_of_abort ha, exec_of_abort ((abortOf_rnd b).trans ha)⟩
  | none =>
    refine ⟨_, exec_of_completes ha, ?_⟩
    rw [exec_of_completes ((abortOf_rnd b).trans ha), writtenBy_rnd b h, targetOf_rnd]
    rfl

/-- Settles O24: whether the instruction aborts, what it writes and where it goes do not depend on the key vector. -/
theorem keysReachOnlyKeyInstructions : Obligations.KeysReachOnlyKeyInstructions := by
  intro i s k hskp hsknp hldk
  cases ha : abortOf i s with
  | some e => exact ⟨_, exec_of_abort ha, exec_of_abort ((abortOf_key k hldk).trans ha)⟩
  | none =>
    refine ⟨_, exec_of_completes ha, ?_⟩
    rw [exec_of_completes ((abortOf_key k hldk).trans ha), writtenBy_key k hldk, targetOf_key k hskp hsknp]
    rfl

/-- Settles O12: memory lists nothing after reset and `sp` is 0. -/
theorem resetMeetsStackRangeAndMemoryForm : Obligations.ResetMeetsStackRangeAndMemoryForm :=
  ⟨Memory.wf_nil, by decide⟩

/-- Settles O28: memory lists nothing after reset, so that it reads as FONT and then as zeros; the other parts are constants. -/
theorem resetValues : Obligations.ResetValues := by
  have hlen : font.length = 80 := by decide
  refine ⟨hlen, fun a ha => ?_, fun a hlo hhi => ?_, fun r => ?_, rfl, rfl, fun k => ?_, rfl, rfl, rfl, fun px py => ?_, rfl, rfl⟩
  · rw [State.memRead_reset (by simp only [memorySize]; omega), List.getD_eq_getElem _ _ ha]
  · rw [State.memRead_reset (by simp only [memorySize]; omega), List.getD_eq_default _ _ (by omega)]
  · simp [State.reg, State.reset, Vector.get_eq_getElem]
  · simp [State.reset, Vector.get_eq_getElem]
  · exact Gfx.pixel_blank px py

end Sys2Proof.Machine

/-! SUPPORT. The rules of memory (20_memory.md): the byte order of a fetch, stored registers read back, the canonical form as a set of
cells, the load port; and the statements that follow from them. -/

namespace Sys2Proof.Machine

/-! ## The byte order of a fetch (20_memory.md R33) -/

section

variable (lower higher : Byte)

theorem bigEndian_toNat : (bigEndian lower higher).toNat = lower.toNat * 256 + higher.toNat := by
  have := lower.isLt
  have := higher.isLt
  simp only [bigEndian, BitVec.toNat_ofNat]
  omega

@[simp] theorem firstByte_bigEndian : firstByte (bigEndian lower higher) = lower := by
  refine BitVec.eq_of_toNat_eq ?_
  have := lower.isLt
  have := higher.isLt
  simp only [firstByte, BitVec.extractLsb'_toNat, bigEndian_toNat, Nat.shiftRight_eq_div_pow]
  omega

@[simp] theorem secondByte_bigEndian : secondByte (bigEndian lower higher) = higher := by
  refine BitVec.eq_of_toNat_eq ?_
  have := higher.isLt
  simp only [secondByte, BitVec.extractLsb'_toNat, bigEndian_toNat, Nat.shiftRight_zero]
  omega

end

/-! ## Addresses modulo 4096, and stored registers (20_memory.md R31, 44_index_memory.md R144) -/

theorem State.memRead_of_mod_eq (s : State) {a a' : Nat} (h : a % memorySize = a' % memorySize) :
    s.memRead a = s.memRead a' :=
  congrArg s.mem.read h

/-- Register `r` of `V[0]` to `V[n - 1]`, stored from `a` on, reads back at `a + r`. -/
theorem State.memRead_storeBytes_regsBelow (s : State) (a : Nat) {n : Nat} {r : Reg} (hr : r.toNat < n) (hn : n ≤ 16) :
    (s.storeBytes a (s.regsBelow n)).memRead (a + r.toNat) = s.reg r := by
  have hlen : (s.regsBelow n).length ≤ memorySize := by simp only [State.length_regsBelow, memorySize]; omega
  rw [State.memRead_storeBytes_at _ _ _ _ (by simpa using hr) hlen, State.getElem_regsBelow]
  simp

/-! ## The canonical form as a set of cells (log 7) -/

namespace Memory

variable {m : Memory}

/-- A byte that is not the reset contents of its address is listed. -/
theorem mem_of_read_ne_unlisted {a : Nat} (h : m.read a ≠ unlistedByte a) : (a, m.read a) ∈ m := by
  induction m with
  | nil => exact absurd rfl h
  | cons c m ih =>
    by_cases ha : a = c.1
    · subst ha
      simp [Memory.read]
    · simp only [Memory.read, if_neg ha] at h ⊢
      exact List.mem_cons_of_mem _ (ih h)

theorem read_of_mem (hm : m.Pairwise (fun c d => c.1 < d.1)) {c : Host.Cell} (hc : c ∈ m) : m.read c.1 = c.2 := by
  induction m with
  | nil => cases hc
  | cons d m ih =>
    obtain ⟨hd, hm⟩ := List.pairwise_cons.1 hm
    rcases List.mem_cons.1 hc with rfl | hc
    · simp [Memory.read]
    · have hne : c.1 ≠ d.1 := (hd c hc).ne'
      rw [Memory.read, if_neg hne, ih hm hc]

/-- What a canonical list holds is fixed by what its addresses read as. -/
theorem mem_iff_of_wf (h : m.wf) (c : Host.Cell) :
    c ∈ m ↔ c.1 < memorySize ∧ c.2 ≠ unlistedByte c.1 ∧ m.read c.1 = c.2 := by
  obtain ⟨hrise, hcell⟩ := h
  constructor
  · intro hc
    obtain ⟨ha, hne⟩ := hcell c hc
    exact ⟨ha, hne, read_of_mem hrise hc⟩
  · rintro ⟨-, hne, hread⟩
    have hmem := mem_of_read_ne_unlisted (hread ▸ hne : m.read c.1 ≠ unlistedByte c.1)
    rwa [hread] at hmem

end Memory

/-! ## The load port (20_memory.md R44, R45, 92_eei_decisions.md D20) -/

theorem programFits_iff (bytes : List Byte) : programFits bytes = true ↔ bytes.length ≤ 3584 := by
  simp [programFits]

section

variable {s : State} {bytes : List Byte}

theorem State.loadProgram_of_fits (hb : s.boot = .fresh) (hl : bytes.length ≤ 3584) :
    s.loadProgram bytes = .next { s.storeBytes 0x200 bytes with boot := .loaded } := by
  simp [State.loadProgram, hb, (programFits_iff bytes).2 hl]

theorem State.loadProgram_of_too_large (hb : s.boot = .fresh) (hl : 3584 < bytes.length) :
    s.loadProgram bytes = .fault .romTooLarge := by
  have hfit : ¬ programFits bytes = true := fun hf => absurd ((programFits_iff bytes).1 hf) (Nat.not_le_of_lt hl)
  simp [State.loadProgram, hb, hfit]

theorem State.loadProgram_out_of_order (hb : s.boot ≠ .fresh) : s.loadProgram bytes = .refused .loadOutOfOrder :=
  if_pos hb

end

/-! ## The statements -/

/-- Settles O25: the byte at `pc + 2` is the one stored at `I`, the byte after it the one stored at `I + 1`, modulo 4096. -/
theorem nextFetchSeesStoredRegisters : Obligations.NextFetchSeesStoredRegisters := by
  intro s x hx hi
  refine ⟨_, exec_of_completes rfl, ?_⟩
  have hbyte (r : Reg) (hr : r.toNat ≤ x.toNat) :
      (s.storeBytes s.i.toNat (s.regsBelow (x.toNat + 1))).memRead ((s.pc + 2).toNat + r.toNat) = s.reg r := by
    rw [State.memRead_of_mod_eq _ (a' := s.i.toNat + r.toNat), State.memRead_storeBytes_regsBelow _ _ (by omega) (by omega)]
    have hpc : (s.pc + 2).toNat = (s.pc.toNat + 2) % 65536 := BitVec.toNat_add _ _
    simp only [memorySize]
    omega
  rw [← hbyte 0x0#4 (Nat.zero_le _), ← hbyte 0x1#4 hx]
  exact bigEndian_toNat _ _

/-- Settles O26: the load reads each register's byte where the store put it, since neither instruction changes `I`. -/
theorem storedRegistersLoadBack : Obligations.StoredRegistersLoadBack := by
  intro s x v'
  refine ⟨_, _, exec_of_completes rfl, exec_of_completes rfl, fun r hr => ?_⟩
  have hlt : r.toNat < x.toNat + 1 := Nat.lt_succ_of_le hr
  simp only [writtenBy, State.completed_reg, State.reg_loadRegs, if_pos hlt]
  exact State.memRead_storeBytes_regsBelow s s.i.toNat hlt x.isLt

/-- Settles O27: both lists hold the same cells, and both in the order of their addresses. -/
theorem canonicalMemoriesThatReadAlikeAreEqual : Obligations.CanonicalMemoriesThatReadAlikeAreEqual := by
  intro m m' hm hm' hread
  have hirr : Std.Irrefl (fun c d : Host.Cell => c.1 < d.1) := ⟨fun c => Nat.lt_irrefl c.1⟩
  refine hm.1.eq_of_mem_iff hm'.1 fun c => ?_
  rw [Memory.mem_iff_of_wf hm, Memory.mem_iff_of_wf hm']
  exact and_congr_right fun ha => by rw [hread c.1 ha]

/-- Settles O30: the load is a store from 0x200 on that is too short to reach an address twice, and sets the boot phase. -/
theorem loadProgramCopiesTheBytes : Obligations.LoadProgramCopiesTheBytes := by
  intro s bytes hb hl
  refine ⟨_, State.loadProgram_of_fits hb hl, fun k hk => ?_, fun a ha hout => ?_, fun r => rfl, rfl, rfl, ⟨rfl, rfl⟩,
    ⟨rfl, rfl⟩, ⟨fun px py => rfl, rfl⟩, rfl, rfl, rfl⟩
  · exact State.memRead_storeBytes_at s 0x200 bytes k hk (by simp only [memorySize]; omega)
  · refine State.memRead_storeBytes_other s 0x200 bytes a fun k hk => ?_
    simp only [memorySize]
    omega

/-- Settles O6: the opcode is the big-endian composition of the two bytes. -/
theorem fetchIsBigEndian : Obligations.FetchIsBigEndian :=
  fun _ => ⟨firstByte_bigEndian _ _, secondByte_bigEndian _ _⟩

/-- Settles O31: the three answers of the load port. -/
theorem loadProgramRejects : Obligations.LoadProgramRejects := by
  refine ⟨fun s bytes hb => ⟨fun h => ?_, State.loadProgram_of_too_large hb⟩, fun s bytes => State.loadProgram_out_of_order⟩
  by_contra hl
  rw [State.loadProgram_of_fits hb (Nat.le_of_not_lt hl)] at h
  cases h

end Sys2Proof.Machine

/-! SUPPORT. The rules of the encoding (30_encoding.md): decoding and encoding are inverse to each other, the decoder accepts the legal
words, the table's rows select them; and the statements that follow from them. -/

namespace Sys2Proof.Machine

/-! ## Decode of encode (30_encoding.md R51 to R53) -/

/-- The fields of an encoded word are the operands, and the selecting fields the constants, so that the decoder takes the instruction's
own arm. -/
theorem decode_encode (i : Instr) : decode (encode i) = .ok i := by
  cases i with
  | cls | ret => decide
  | jp _ | call _ | ldINnn _ | jpV0Nnn _ => simp [encode, decode, fieldG_wordA, fieldNNN_wordA]
  | seVxNn _ _ | sneVxNn _ _ | ldVxNn _ _ | addVxNn _ _ | rndVxNn _ _ =>
    simp [encode, decode, fieldG_wordXI, fieldX_wordXI, fieldNN_wordXI]
  | seVxVy _ _ | sneVxVy _ _ | drwVxVyN _ _ _ =>
    simp [encode, decode, fieldG_wordXYN, fieldX_wordXYN, fieldY_wordXYN, fieldN_wordXYN]
  | ldVxVy _ _ | orVxVy _ _ | andVxVy _ _ | xorVxVy _ _ | addVxVy _ _ | subVxVy _ _ | shrVx _ _ | subnVxVy _ _ | shlVx _ _ =>
    simp [encode, decode, decodeGroup8, fieldG_wordXYN, fieldX_wordXYN, fieldY_wordXYN, fieldN_wordXYN]
  | skpVx _ | sknpVx _ => simp [encode, decode, decodeGroupE, fieldG_wordXI, fieldX_wordXI, fieldNN_wordXI]
  | ldVxDt _ | ldVxK _ | ldDtVx _ | ldStVx _ | addIVx _ | ldFVx _ | ldBVx _ | ldMemVx _ | ldVxMem _ =>
    simp [encode, decode, decodeGroupF, fieldG_wordXI, fieldX_wordXI, fieldNN_wordXI]

section

variable {w : Word} {g : Nat}

/-! ## A word from its selecting fields (30_encoding.md R52) -/

theorem wordA_of_fields (hg : (fieldG w).toNat = g) : wordA g (fieldNNN w) = w :=
  hg ▸ wordA_fields w

theorem wordXI_of_fields (hg : (fieldG w).toNat = g) : wordXI g (fieldX w) (fieldNN w) = w :=
  hg ▸ wordXI_fields w

theorem wordXYN_of_fields (hg : (fieldG w).toNat = g) : wordXYN g (fieldX w) (fieldY w) (fieldN w) = w :=
  hg ▸ wordXYN_fields w

/-- Format XY: the function nibble is a constant. -/
theorem wordXY_of_fields {n : BitVec 4} (hg : (fieldG w).toNat = g) (hn : (fieldN w).toNat = n.toNat) :
    wordXYN g (fieldX w) (fieldY w) n = w :=
  BitVec.eq_of_toNat_eq hn ▸ wordXYN_of_fields hg

/-- Format XF: the low byte is a constant. -/
theorem wordXF_of_fields {nn : Byte} (hg : (fieldG w).toNat = g) (hnn : (fieldNN w).toNat = nn.toNat) :
    wordXI g (fieldX w) nn = w :=
  BitVec.eq_of_toNat_eq hnn ▸ wordXI_of_fields hg

end

section

variable {w : Word} {i : Instr}

/-! ## Encode of decode (30_encoding.md R66) -/

theorem encode_of_decodeGroup0 (h : decodeGroup0 w = .ok i) : encode i = w := by
  unfold decodeGroup0 at h
  split at h
  · next hw => cases h; exact hw.symm
  · split at h
    · next hw => cases h; exact hw.symm
    · cases h

theorem encode_of_decodeGroup8 (hg : (fieldG w).toNat = 0x8) (h : decodeGroup8 w = .ok i) : encode i = w := by
  unfold decodeGroup8 at h
  split at h <;> cases h <;> exact wordXY_of_fields hg ‹_›

theorem encode_of_decodeGroupE (hg : (fieldG w).toNat = 0xE) (h : decodeGroupE w = .ok i) : encode i = w := by
  unfold decodeGroupE at h
  split at h <;> cases h <;> exact wordXF_of_fields hg ‹_›

theorem encode_of_decodeGroupF (hg : (fieldG w).toNat = 0xF) (h : decodeGroupF w = .ok i) : encode i = w := by
  unfold decodeGroupF at h
  split at h <;> cases h <;> exact wordXF_of_fields hg ‹_›

/-- Where the decoder reads the operands from the fields, the encoder puts them back.  The decoder's arms, one per value of `G` from 0 on,
are the cases `h_1` to `h_16`, taken here by format. -/
theorem encode_of_decode (h : decode w = .ok i) : encode i = w := by
  unfold decode at h
  split at h
  case h_1 => exact encode_of_decodeGroup0 h
  case h_6 hg | h_10 hg =>
    split at h
    · next hn => cases h; exact wordXY_of_fields hg (congrArg _ hn)
    · cases h
  case h_9 hg => exact encode_of_decodeGroup8 hg h
  case h_15 hg => exact encode_of_decodeGroupE hg h
  case h_16 =>
    have hg : (fieldG w).toNat = 0xF := by grind [(fieldG w).isLt]
    exact encode_of_decodeGroupF hg h
  case h_2 hg | h_3 hg | h_11 hg | h_12 hg => cases h; exact wordA_of_fields hg
  case h_4 hg | h_5 hg | h_7 hg | h_8 hg | h_13 hg => cases h; exact wordXI_of_fields hg
  case h_14 hg => cases h; exact wordXYN_of_fields hg

end

/-! ## The words the decoder accepts (30_encoding.md R54 to R60) -/

section

variable {w : Word}

theorem decodeGroup0_accepts : (∃ i, decodeGroup0 w = .ok i) ↔ w = 0x00E0#16 ∨ w = 0x00EE#16 := by
  unfold decodeGroup0
  split
  · simp [*]
  · split <;> simp [*]

theorem decodeGroup8_accepts : (∃ i, decodeGroup8 w = .ok i) ↔ (fieldN w).toNat ∉ illegalGroup8 := by
  have := (fieldN w).isLt
  unfold decodeGroup8
  split
  case h_10 => simp_all [illegalGroup8]; omega
  all_goals simp [illegalGroup8, *]

theorem decodeGroupE_accepts : (∃ i, decodeGroupE w = .ok i) ↔ (fieldNN w).toNat = 0x9E ∨ (fieldNN w).toNat = 0xA1 := by
  unfold decodeGroupE
  split <;> simp_all

theorem decodeGroupF_accepts : (∃ i, decodeGroupF w = .ok i) ↔ (fieldNN w).toNat ∈ legalGroupF := by
  unfold decodeGroupF
  split <;> simp_all [legalGroupF]

/-- The list of illegal words, in the fields the decoder reads. -/
theorem wordLegal_iff : wordLegal w = true ↔
    ((fieldG w).toNat = 0x0 → w = 0x00E0#16 ∨ w = 0x00EE#16) ∧
    ((fieldG w).toNat = 0x5 → fieldN w = 0#4) ∧
    ((fieldG w).toNat = 0x8 → (fieldN w).toNat ∉ illegalGroup8) ∧
    ((fieldG w).toNat = 0x9 → fieldN w = 0#4) ∧
    ((fieldG w).toNat = 0xE → (fieldNN w).toNat = 0x9E ∨ (fieldNN w).toNat = 0xA1) ∧
    ((fieldG w).toNat = 0xF → (fieldNN w).toNat ∈ legalGroupF) := by
  have hn : fieldN w = 0#4 ↔ (fieldN w).toNat = 0 := BitVec.toNat_inj.symm
  simp only [wordLegal, ← fieldG_toNat, ← fieldN_toNat, ← fieldNN_toNat, hn]
  simp [imp_iff_not_or, or_assoc, and_assoc]

theorem decode_accepts_iff : (∃ i, decode w = .ok i) ↔ wordLegal w = true := by
  rw [wordLegal_iff]
  unfold decode
  split
  case h_1 hg => simp [hg, decodeGroup0_accepts]
  case h_6 hg | h_10 hg => split <;> simp [*]
  case h_9 hg => simp [hg, decodeGroup8_accepts]
  case h_15 hg => simp [hg, decodeGroupE_accepts]
  case h_16 =>
    have hg : (fieldG w).toNat = 0xF := by grind [(fieldG w).isLt]
    simp [hg, decodeGroupF_accepts]
  all_goals simp [*]

end

/-! ## The rows of the opcode table (30_encoding.md section 4) -/

section

variable {w p : Word} {r : TableRow}

/-- The mask F000 compares `G`. -/
theorem fieldG_of_F000 (h : w &&& 0xF000#16 = p) : (fieldG w).toNat = p.toNat / 0x1000 := by
  have := and_F000 w
  rw [h] at this
  omega

/-- The mask F00F compares `G` and `N`. -/
theorem fields_of_F00F (h : w &&& 0xF00F#16 = p) :
    (fieldG w).toNat = p.toNat / 0x1000 ∧ (fieldN w).toNat = p.toNat % 0x1000 := by
  have := (fieldN w).isLt
  have := and_F00F w
  rw [h] at this
  omega

/-- The mask F0FF compares `G` and `NN`. -/
theorem fields_of_F0FF (h : w &&& 0xF0FF#16 = p) :
    (fieldG w).toNat = p.toNat / 0x1000 ∧ (fieldNN w).toNat = p.toNat % 0x1000 := by
  have := (fieldNN w).isLt
  have := and_F0FF w
  rw [h] at this
  omega

/-- A word that selects the row of an instruction decodes to an instruction of that row: the mask compares the fields that select it. -/
theorem decode_of_row (i : Instr) (h : w &&& i.row.mask = i.row.pat) : ∃ j, decode w = .ok j ∧ j.row = i.row := by
  cases i with
  | cls | ret =>
    obtain rfl := (BitVec.and_allOnes (x := w)).symm.trans h
    exact ⟨_, by decide, rfl⟩
  | jp _ | call _ | seVxNn _ _ | sneVxNn _ _ | ldVxNn _ _ | addVxNn _ _ | ldINnn _ | jpV0Nnn _ | rndVxNn _ _ | drwVxVyN _ _ _ =>
    simp [decode, fieldG_of_F000 h, Instr.row]
  | seVxVy _ _ | sneVxVy _ _ =>
    obtain ⟨hg, hn⟩ := fields_of_F00F h
    have hn : fieldN w = 0#4 := BitVec.eq_of_toNat_eq (by simpa [Instr.row] using hn)
    simp [decode, hg, hn, Instr.row]
  | ldVxVy _ _ | orVxVy _ _ | andVxVy _ _ | xorVxVy _ _ | addVxVy _ _ | subVxVy _ _ | shrVx _ _ | subnVxVy _ _ | shlVx _ _ =>
    obtain ⟨hg, hn⟩ := fields_of_F00F h
    simp [decode, decodeGroup8, hg, hn, Instr.row]
  | skpVx _ | sknpVx _ =>
    obtain ⟨hg, hnn⟩ := fields_of_F0FF h
    simp [decode, decodeGroupE, hg, hnn, Instr.row]
  | ldVxDt _ | ldVxK _ | ldDtVx _ | ldStVx _ | addIVx _ | ldFVx _ | ldBVx _ | ldMemVx _ | ldVxMem _ =>
    obtain ⟨hg, hnn⟩ := fields_of_F0FF h
    simp [decode, decodeGroupF, hg, hnn, Instr.row]

/-- Every row of the table is the row of the instruction its pattern decodes to. -/
theorem exists_row_eq (hr : r ∈ opcodeTable) : ∃ i : Instr, i.row = r := by
  have hpat : ∀ r ∈ opcodeTable, (decode r.pat).map Instr.row = .ok r := by decide
  have h := hpat r hr
  cases hd : decode r.pat with
  | error e => simp [hd, Except.map] at h
  | ok i => exact ⟨i, by simpa [hd, Except.map] using h⟩

theorem row_selects_iff (hr : r ∈ opcodeTable) : w &&& r.mask = r.pat ↔ ∃ i, decode w = .ok i ∧ i.row = r := by
  constructor
  · obtain ⟨i, rfl⟩ := exists_row_eq hr
    exact decode_of_row i
  · rintro ⟨i, hd, rfl⟩
    rw [← encode_of_decode hd]
    exact beq_iff_eq.1 (Laws.EncodeInRow.holds i).2

end

/-! ## The statements -/

/-- Settles O2: the decoder reads the constants and the operands that the encoder wrote into the fields. -/
theorem decodeOfEncodeIsTheInstruction : Obligations.DecodeOfEncodeIsTheInstruction :=
  decode_encode

/-- Settles O3: a word is spelled by its fields, and an instruction keeps those that do not select it. -/
theorem encodeOfDecodeIsTheWord : Obligations.EncodeOfDecodeIsTheWord :=
  fun _ _ => encode_of_decode

/-- Settles O4: each group of the decoder rejects the words that the list of illegal words names for it. -/
theorem decoderAcceptsExactlyTheLegalWords : Obligations.DecoderAcceptsExactlyTheLegalWords :=
  fun _ => decode_accepts_iff

/-- Settles O5: at most one row, since a word has at most one decoding. -/
theorem tableRowsSelectTheirInstructions : Obligations.TableRowsSelectTheirInstructions := by
  refine ⟨rfl, fun w r => row_selects_iff, fun w r r' hr hr' h h' => ?_⟩
  obtain ⟨i, hi, rfl⟩ := (row_selects_iff hr).1 h
  obtain ⟨j, hj, rfl⟩ := (row_selects_iff hr').1 h'
  rw [hi] at hj
  cases hj
  rfl

/-- Settles O9: an illegal word has no decoding, and the step then raises on the state that has only latched its inputs. -/
theorem illegalWordRaisesUnknownOpcode : Obligations.IllegalWordRaisesUnknownOpcode := by
  intro s hw
  cases hd : decode s.fetchWord with
  | ok i => exact absurd (decode_accepts_iff.1 ⟨i, hd⟩) (by simp [hw])
  | error r => exact ⟨_, step_of_illegal s r hd, rfl, ⟨rfl, rfl, rfl, rfl, rfl, rfl, rfl, rfl, rfl⟩, rfl, rfl⟩

end Sys2Proof.Machine

/-! SUPPORT. The rules of the step (40_step_cycle.md): every step answers, a step either aborts or completes, said once over the latched
state, and the statements that follow from it. -/

namespace Sys2Proof.Machine

/-! ## A step aborts or completes (40_step_cycle.md R73, R74) -/

/-- What a step can do, in terms of the latched state: abort, on an illegal word or in its instruction, with only the status new and no
tick; or complete, with the instruction's writes and then the tick. -/
theorem step_aborts_or_completes {s t : State} (h : step s = .next t) :
    (∃ e, e ≠ .running ∧ t = s.begun.raised e) ∨
    (∃ i, decode s.fetchWord = .ok i ∧ abortOf i s.begun = none ∧
      t = ((writtenBy i s.begun).completed (targetOf i s.begun)).ticked) := by
  obtain ⟨r, -, rfl⟩ | ⟨i, u, hd, hu, rfl⟩ := step_cases s t h
  · exact .inl ⟨.unknownOpcode, by decide, rfl⟩
  · obtain ⟨e, ha, rfl⟩ | ⟨ha, rfl⟩ := exec_cases hu
    · have he : e ≠ .running := abortOf_ne_running ha
      exact .inl ⟨e, he, State.ended_of_not_running _ he⟩
    · exact .inr ⟨i, hd, ha, State.ended_of_running _ rfl⟩

/-! ## The statements -/

/-- Settles O10: an illegal word raises, and every instruction answers a next state. -/
theorem stepAlwaysAnswersANextState : Obligations.StepAlwaysAnswersANextState := by
  intro s
  cases hd : decode s.fetchWord with
  | error r => exact ⟨_, step_of_illegal s r hd⟩
  | ok i =>
    obtain ⟨u, hu⟩ := exec_next i s.begun
    exact ⟨_, step_of_exec s u i hd hu⟩

/-- Settles O13: a step that does not complete leaves the latched state but for the status. -/
theorem abortedStepChangesNothing : Obligations.AbortedStepChangesNothing := by
  intro s t h hr
  obtain ⟨e, -, rfl⟩ | ⟨i, -, -, rfl⟩ := step_aborts_or_completes h
  · exact ⟨⟨rfl, rfl, rfl, rfl, rfl, rfl, rfl, rfl, rfl⟩, rfl, rfl⟩
  · exact absurd rfl hr

/-- Settles O18: only a completing step ticks, and then the tick finds the timers that FX15 and FX18 alone write. -/
theorem timersCountCompletingSteps : Obligations.TimersCountCompletingSteps := by
  intro s t h
  obtain ⟨e, he, rfl⟩ | ⟨i, hd, -, rfl⟩ := step_aborts_or_completes h
  · exact ⟨fun _ => ⟨rfl, rfl⟩, fun hr => absurd hr he⟩
  · refine ⟨fun hr => absurd rfl hr, fun _ => ⟨fun hdt => ?_, fun hst => ?_⟩⟩
    · have hi : ∀ x, i ≠ .ldDtVx x := fun x hx => hdt x (hx ▸ hd)
      simp [writtenBy_dt hi, countDown_toNat]
    · have hi : ∀ x, i ≠ .ldStVx x := fun x hx => hst x (hx ▸ hd)
      simp [writtenBy_st hi, countDown_toNat]

/-- Settles O8: the state the instruction runs on is the latched one, and the end of the step ticks it if it completed. -/
theorem stepRunsTheDecodedInstruction : Obligations.StepRunsTheDecodedInstruction :=
  fun s t i => step_of_exec s t i

end Sys2Proof.Machine

/-! SUPPORT. The rules of control transfer (41_flow.md): targets as numbers, the stack entry a return pops, when a call or a return
completes, what all four control transfers leave unchanged; and the statements that follow from them. -/

namespace Sys2Proof.Machine

/-! ## Targets as numbers (41_flow.md R101, R103) -/

@[simp] theorem zextNnn_toNat (nnn : BitVec 12) : (zextNnn nnn).toNat = nnn.toNat :=
  BitVec.toNat_setWidth_of_le (by decide)

@[simp] theorem zextByte_toNat (b : Byte) : (zextByte b).toNat = b.toNat :=
  BitVec.toNat_setWidth_of_le (by decide)

/-- A 12-bit address and a byte add up without wrapping (92_eei_decisions.md D6). -/
theorem zextNnn_add_zextByte_toNat (nnn : BitVec 12) (b : Byte) : (zextNnn nnn + zextByte b).toNat = nnn.toNat + b.toNat := by
  rw [BitVec.toNat_add_of_lt, zextNnn_toNat, zextByte_toNat]
  rw [zextNnn_toNat, zextByte_toNat]
  omega

section

variable {s t : State}

/-! ## The popped entry (41_flow.md R100) -/

theorem State.popSp_sp_toNat (h : 1 ≤ s.sp.toNat) : s.popSp.sp.toNat = s.sp.toNat - 1 :=
  BitVec.toNat_sub_of_le (BitVec.le_def.2 h)

/-- Above an empty stack the popped entry is the last one in use. -/
theorem State.stackTop_popSp (h : 1 ≤ s.sp.toNat ∧ s.sp.toNat ≤ 16) :
    s.popSp.stackTop = s.stack.get ⟨s.sp.toNat - 1, by omega⟩ := by
  have hsp : s.popSp.sp.toNat = s.sp.toNat - 1 := State.popSp_sp_toNat h.1
  refine congrArg s.stack.get (Fin.ext ?_)
  rw [stackIndex_val _ (by omega), hsp]

/-- A pop finds what a push on an equal stack left on top. -/
theorem State.stackTop_popSp_of_pushPc (hstack : t.stack = s.pushPc.stack) (hsp : t.sp = s.pushPc.sp) :
    t.popSp.stackTop = s.pc := by
  have hpop : t.sp - 1 = s.sp := by simp [hsp]
  simp only [State.stackTop, State.popSp_stack, State.popSp_sp, hstack, hpop, State.get_stack_pushPc, if_pos]

/-! ## Calls and returns that complete (41_flow.md R100, R102) -/

theorem exec_call_of_lt (nnn : BitVec 12) (h : s.sp.toNat < 16) :
    exec (.call nnn) s = .next (s.pushPc.completed (zextNnn nnn)) := by
  have hsp : s.sp ≠ 16#5 := fun e => absurd h (by simp [e])
  exact exec_of_completes (if_neg hsp)

theorem exec_ret_of_ne_zero (h : s.sp ≠ 0#5) : exec .ret s = .next (s.popSp.completed (s.popSp.stackTop + 2)) :=
  exec_of_completes (if_neg h)

/-! ## The frame of a control transfer -/

/-- A control transfer that completes writes nothing but `pc`, the status and the stack. -/
theorem completed_writtenBy_keeps_of_setsPc {i : Instr} (hi : setsPc i) (w : Word) (ht : t = (writtenBy i s).completed w) :
    KeepsRegs s t ∧ KeepsMemory s t ∧ t.i = s.i ∧ KeepsTimers s t ∧ KeepsDisplay s t ∧ KeepsPorts s t := by
  subst ht
  obtain rfl | ⟨n, rfl⟩ | ⟨n, rfl⟩ | ⟨n, rfl⟩ := hi <;>
    exact ⟨fun _ => rfl, fun _ => rfl, rfl, ⟨rfl, rfl⟩, ⟨fun _ _ => rfl, rfl⟩, writtenBy_keepsPorts⟩

end

/-- Completing alone writes only `pc` and the status. -/
theorem State.onlyPc_completed (s : State) (w : Word) : OnlyPc s (s.completed w) :=
  ⟨fun _ => rfl, fun _ => rfl, rfl, ⟨rfl, rfl⟩, ⟨rfl, rfl⟩, ⟨fun _ _ => rfl, rfl⟩, rfl, rfl, rfl, rfl, rfl, rfl⟩

/-! ## The statements -/

/-- Settles O36: the call left its address on top of the stack, and the return pops that entry. -/
theorem returnGoesToTheInstructionAfterTheCall : Obligations.ReturnGoesToTheInstructionAfterTheCall := by
  intro nnn s t t' hs hcall hstack hsp
  rw [exec_call_of_lt nnn hs] at hcall
  obtain rfl : s.pushPc.completed (zextNnn nnn) = t := Host.Outcome.next.inj hcall
  have hsp' : t'.sp = s.sp + 1 := hsp
  have hne : t'.sp ≠ 0#5 := by bv_omega
  refine ⟨_, exec_ret_of_ne_zero hne, ?_, ?_, rfl⟩
  · rw [State.completed_pc, State.stackTop_popSp_of_pushPc hstack hsp]
  · simp [hsp']

/-- Settles O32: 1NNN completes at its target and writes nothing else. -/
theorem jumpGoesToItsTarget : Obligations.JumpGoesToItsTarget :=
  fun nnn s => ⟨_, rfl, zextNnn_toNat nnn, rfl, s.onlyPc_completed _⟩

/-- Settles O33: BNNN completes at the sum, which fits in 16 bits, and writes nothing else. -/
theorem jumpV0AddsV0Unmasked : Obligations.JumpV0AddsV0Unmasked :=
  fun nnn s => ⟨_, rfl, zextNnn_add_zextByte_toNat nnn _, rfl, s.onlyPc_completed _⟩

/-- Settles O34: below 16 entries the push is in range, with 16 the call aborts. -/
theorem callPushesItsAddressOrOverflows : Obligations.CallPushesItsAddressOrOverflows := by
  refine fun nnn s => ⟨fun h => ?_, fun h => exec_of_abort (if_pos (BitVec.eq_of_toNat_eq h))⟩
  have hidx : (stackIndex s.sp).val = s.sp.toNat := stackIndex_val _ h
  have hsp : (s.sp + 1).toNat = s.sp.toNat + 1 := BitVec.toNat_add_of_lt (by simp; omega)
  refine ⟨_, exec_call_of_lt nnn h, ?_, fun k hk => ?_, hsp, zextNnn_toNat nnn, rfl,
    completed_writtenBy_keeps_of_setsPc (i := .call nnn) (by simp [setsPc]) _ rfl⟩
  · exact (s.get_stack_pushPc _).trans (if_pos (Fin.ext hidx.symm))
  · exact (s.get_stack_pushPc k).trans (if_neg fun e => hk ((congrArg Fin.val e).trans hidx))

/-- Settles O35: above an empty stack the popped entry is in range, with an empty one the return aborts. -/
theorem returnPopsOrUnderflows : Obligations.ReturnPopsOrUnderflows := by
  refine fun s => ⟨fun h => ?_, fun h => exec_of_abort (if_pos (BitVec.eq_of_toNat_eq h))⟩
  have hne : s.sp ≠ 0#5 := fun e => absurd h.1 (by simp [e])
  refine ⟨_, exec_ret_of_ne_zero hne, State.popSp_sp_toNat h.1, ?_, rfl, rfl,
    completed_writtenBy_keeps_of_setsPc (i := .ret) (by simp [setsPc]) _ rfl⟩
  rw [State.completed_pc, State.stackTop_popSp h]
  exact BitVec.toNat_add _ _

end Sys2Proof.Machine

/-! SUPPORT. The rules of the conditional skips (42_skip.md): the key a register selects, what a skip does under its condition; and the
statements that follow from them. -/

namespace Sys2Proof.Machine

/-- The low nibble is the remainder modulo 16 (92_eei_decisions.md D9). -/
@[simp] theorem keyIndex_toNat (b : Byte) : (keyIndex b).toNat = b.toNat % 16 :=
  BitVec.extractLsb'_toNat 0 4 b

section

variable {i : Instr} {s : State} {b : Bool} {c : Prop}

/-- A skip that tests the condition in a Boolean skips exactly under the condition (42_skip.md R116). -/
theorem State.skipsExactlyIf_skippedIf (hc : b = true ↔ c) : SkipsExactlyIf c s (s.skippedIf b) := by
  refine ⟨fun h => ?_, fun h => ?_, rfl⟩
  · rw [State.skippedIf_pc, if_pos (hc.2 h)]
    exact BitVec.toNat_add _ _
  · rw [State.skippedIf_pc, if_neg (mt hc.1 h)]
    exact BitVec.toNat_add _ _

/-- An instruction that does nothing but skip completes, skips exactly under its condition and writes only `pc` and the status. -/
theorem exec_skips_of_skippedIf (he : exec i s = .next (s.skippedIf b)) (hc : b = true ↔ c) :
    ∃ t, exec i s = .next t ∧ SkipsExactlyIf c s t ∧ OnlyPc s t :=
  ⟨_, he, State.skipsExactlyIf_skippedIf hc, s.onlyPc_completed _⟩

end

/-- What EX9E and EXA1 test is the bit of the key vector that the low nibble selects. -/
theorem keyPressed_keyIndex (key : Word) (b : Byte) : keyPressed key (keyIndex b).toNat = key.getLsbD (b.toNat % 16) := by
  rw [keyIndex_toNat, keyPressed]

/-! ## The statements -/

/-- Settles O37: 3XNN tests equality with the immediate, 4XNN inequality. -/
theorem skipOnImmediate : Obligations.SkipOnImmediate :=
  fun _ _ _ => ⟨exec_skips_of_skippedIf rfl beq_iff_eq, exec_skips_of_skippedIf rfl bne_iff_ne⟩

/-- Settles O38: 5XY0 tests equality of the two registers, 9XY0 inequality. -/
theorem skipOnRegisters : Obligations.SkipOnRegisters :=
  fun _ _ _ => ⟨exec_skips_of_skippedIf rfl beq_iff_eq, exec_skips_of_skippedIf rfl bne_iff_ne⟩

/-- Settles O39: EX9E tests the selected key bit, EXA1 its negation. -/
theorem skipOnKey : Obligations.SkipOnKey := by
  refine fun x s => ⟨exec_skips_of_skippedIf rfl ?_, exec_skips_of_skippedIf rfl ?_⟩
  · rw [keyPressed_keyIndex]
  · rw [keyPressed_keyIndex, Bool.not_eq_true']

end Sys2Proof.Machine

/-! SUPPORT. The rules of register loads and arithmetic (43_alu.md): results and flags as numbers, what the two ways these instructions
write the register file leave unchanged; and the statements that follow from them. -/

namespace Sys2Proof.Machine

/-! ## Results and flags as numbers (43_alu.md R126 to R130, R133) -/

section

variable (a b : Byte)

/-- The difference modulo 256, written without a negative number. -/
theorem byte_sub_toNat : (a - b).toNat = (a.toNat + 256 - b.toNat) % 256 := by
  rw [BitVec.toNat_sub]
  omega

theorem byte_ushiftRight_one_toNat : (a >>> 1).toNat = a.toNat / 2 := by
  rw [BitVec.toNat_ushiftRight, Nat.shiftRight_eq_div_pow, Nat.pow_one]

theorem byte_shiftLeft_one_toNat : (a <<< 1).toNat = a.toNat * 2 % 256 := by
  rw [BitVec.toNat_shiftLeft, Nat.shiftLeft_eq, Nat.pow_one]

theorem flagByte_toNat (f : Bool) : (flagByte f).toNat = f.toNat := by
  cases f <;> rfl

theorem flagByte_carryOut : flagByte (carryOut a b) = if a.toNat + b.toNat > 255 then 0x01#8 else 0x00#8 := by
  simp only [flagByte, carryOut, decide_eq_true_eq]

theorem flagByte_noBorrow : flagByte (noBorrow a b) = if a.toNat ≥ b.toNat then 0x01#8 else 0x00#8 := by
  simp only [flagByte, noBorrow, decide_eq_true_eq]

theorem flagByte_shiftedOutLow_toNat : (flagByte (shiftedOutLow a)).toNat = a.toNat % 2 := by
  rw [flagByte_toNat, shiftedOutLow, BitVec.getLsbD, Nat.toNat_testBit, Nat.pow_zero, Nat.div_one]

theorem flagByte_shiftedOutHigh_toNat : (flagByte (shiftedOutHigh a)).toNat = a.toNat / 128 := by
  rw [flagByte_toNat, shiftedOutHigh, BitVec.getLsbD, Nat.toNat_testBit]
  omega

end

/-! ## The frame of an instruction that writes registers, one rule per operation it is made of -/

section

variable {w : Reg → Prop} {s t : State}

theorem OnlyPcAndRegs.refl : OnlyPcAndRegs w s s :=
  ⟨fun _ _ => rfl, fun _ => rfl, rfl, ⟨rfl, rfl⟩, ⟨rfl, rfl⟩, ⟨fun _ _ => rfl, rfl⟩, rfl, rfl, rfl, rfl, rfl, rfl⟩

/-- Writing a register of the frame stays in the frame. -/
theorem OnlyPcAndRegs.setReg {x : Reg} (h : OnlyPcAndRegs w s t) (hx : w x) (b : Byte) : OnlyPcAndRegs w s (t.setReg x b) := by
  obtain ⟨hregs, hrest⟩ := h
  refine ⟨fun r hr => ?_, hrest⟩
  have hne : r ≠ x := fun e => hr (e ▸ hx)
  rw [State.reg_setReg, if_neg hne, hregs r hr]

theorem OnlyPcAndRegs.setFlag (h : OnlyPcAndRegs w s t) (hw : w 0xF#4) (f : Bool) : OnlyPcAndRegs w s (t.setFlag f) :=
  h.setReg hw _

theorem OnlyPcAndRegs.advanced (h : OnlyPcAndRegs w s t) : OnlyPcAndRegs w s t.advanced := h

theorem State.advances_advanced (h : t.pc = s.pc) : Advances s t.advanced := by
  refine ⟨?_, rfl⟩
  rw [State.advanced_pc, h]
  exact BitVec.toNat_add _ _

end

/-! ## The two ways these instructions write the register file (43_alu.md R132) -/

/-- An instruction that writes one register and goes on. -/
theorem exec_result {i : Instr} {s : State} {x : Reg} {b : Byte} (he : exec i s = .next (s.setReg x b).advanced) :
    ∃ t, exec i s = .next t ∧ t.reg x = b ∧ Advances s t ∧ OnlyPcAndRegs (· = x) s t :=
  ⟨_, he, (State.reg_setReg s x x b).trans (if_pos rfl), State.advances_advanced rfl,
    (OnlyPcAndRegs.refl.setReg (w := (· = x)) rfl b).advanced⟩

section

variable (s : State) (x : Reg) (b : Byte) (f : Bool)

/-- The state after an instruction that writes a result, then the flag, and goes on. -/
def State.resultThenFlag : State := ((s.setReg x b).setFlag f).advanced

/-- The flag is written last, so VF holds it whatever the destination is (92_eei_decisions.md D5). -/
theorem State.resultThenFlag_reg_vf : (s.resultThenFlag x b f).reg 0xF#4 = flagByte f :=
  (State.reg_setFlag _ _ _).trans (if_pos rfl)

/-- A destination other than VF keeps the result. -/
theorem State.resultThenFlag_reg {x : Reg} (hx : x ≠ 0xF#4) : (s.resultThenFlag x b f).reg x = b := by
  rw [State.resultThenFlag, State.advanced_reg, State.reg_setFlag, if_neg hx, State.reg_setReg, if_pos rfl]

theorem State.resultThenFlag_frame :
    Advances s (s.resultThenFlag x b f) ∧ OnlyPcAndRegs (fun r => r = x ∨ r = 0xF#4) s (s.resultThenFlag x b f) :=
  ⟨State.advances_advanced rfl, ((OnlyPcAndRegs.refl.setReg (.inl rfl) b).setFlag (.inr rfl) f).advanced⟩

end

/-! ## The five flag-defining instructions (43_alu.md R126 to R130) -/

section

variable (x y : Reg) (s : State)

theorem exec_addVxVy :
    exec (.addVxVy x y) s = .next (s.resultThenFlag x (s.reg x + s.reg y) (carryOut (s.reg x) (s.reg y))) := rfl

theorem exec_subVxVy :
    exec (.subVxVy x y) s = .next (s.resultThenFlag x (s.reg x - s.reg y) (noBorrow (s.reg x) (s.reg y))) := rfl

theorem exec_subnVxVy :
    exec (.subnVxVy x y) s = .next (s.resultThenFlag x (s.reg y - s.reg x) (noBorrow (s.reg y) (s.reg x))) := rfl

theorem exec_shrVx : exec (.shrVx x y) s = .next (s.resultThenFlag x (s.reg x >>> 1) (shiftedOutLow (s.reg x))) := rfl

theorem exec_shlVx : exec (.shlVx x y) s = .next (s.resultThenFlag x (s.reg x <<< 1) (shiftedOutHigh (s.reg x))) := rfl

end

/-! ## The statements -/

/-- Settles O40: each load writes one register. -/
theorem registerLoads : Obligations.RegisterLoads :=
  fun _ _ _ _ => ⟨exec_result rfl, exec_result rfl⟩

/-- Settles O41: the 8-bit sum is the one register written. -/
theorem addImmediateWrapsWithoutFlag : Obligations.AddImmediateWrapsWithoutFlag := by
  intro x nn s
  obtain ⟨t, ht, hx, hframe⟩ := exec_result (i := .addVxNn x nn) (s := s) rfl
  exact ⟨t, ht, hx ▸ BitVec.toNat_add _ _, hframe⟩

/-- Settles O42: each bitwise operation writes one register. -/
theorem logicalOperationsLeaveFlag : Obligations.LogicalOperationsLeaveFlag :=
  fun _ _ _ => ⟨exec_result rfl, exec_result rfl, exec_result rfl⟩

/-- Settles O43: the sum stays in a destination other than VF, and VF holds the carry. -/
theorem addSetsSumAndCarry : Obligations.AddSetsSumAndCarry := by
  refine fun x y s => ⟨_, exec_addVxVy x y s, fun hx => ⟨?_, ?_⟩, s.resultThenFlag_frame _ _ _⟩
  · rw [State.resultThenFlag_reg _ _ _ hx, BitVec.toNat_add]
  · rw [State.resultThenFlag_reg_vf, flagByte_carryOut]

/-- Settles O44: the two subtractions differ in which register is the minuend. -/
theorem subtractSetsDifferenceAndNoBorrow : Obligations.SubtractSetsDifferenceAndNoBorrow := by
  refine fun x y s => ⟨⟨_, exec_subVxVy x y s, fun hx => ?_, s.resultThenFlag_frame _ _ _⟩,
    ⟨_, exec_subnVxVy x y s, fun hx => ?_, s.resultThenFlag_frame _ _ _⟩⟩
  · rw [State.resultThenFlag_reg _ _ _ hx, State.resultThenFlag_reg_vf]
    exact ⟨byte_sub_toNat _ _, flagByte_noBorrow _ _⟩
  · rw [State.resultThenFlag_reg _ _ _ hx, State.resultThenFlag_reg_vf]
    exact ⟨byte_sub_toNat _ _, flagByte_noBorrow _ _⟩

/-- Settles O45: the shifts read the destination alone, and VF holds the bit shifted out. -/
theorem shiftsMoveByOneBit : Obligations.ShiftsMoveByOneBit := by
  refine fun x y s => ⟨⟨_, exec_shrVx x y s, fun hx => ?_, s.resultThenFlag_frame _ _ _⟩,
    ⟨_, exec_shlVx x y s, fun hx => ?_, s.resultThenFlag_frame _ _ _⟩⟩
  · rw [State.resultThenFlag_reg _ _ _ hx, State.resultThenFlag_reg_vf]
    exact ⟨byte_ushiftRight_one_toNat _, flagByte_shiftedOutLow_toNat _⟩
  · rw [State.resultThenFlag_reg _ _ _ hx, State.resultThenFlag_reg_vf]
    exact ⟨byte_shiftLeft_one_toNat _, flagByte_shiftedOutHigh_toNat _⟩

/-- Settles O46: VF holds the flag whatever the destination is, VF among them. -/
theorem flagIsWrittenAfterTheResult : Obligations.FlagIsWrittenAfterTheResult := by
  refine fun y s => ⟨⟨_, exec_addVxVy _ y s, rfl, ?_⟩, ⟨_, exec_subVxVy _ y s, rfl, ?_⟩, ⟨_, exec_subnVxVy _ y s, rfl, ?_⟩,
    ⟨_, exec_shrVx _ y s, rfl, ?_⟩, ⟨_, exec_shlVx _ y s, rfl, ?_⟩⟩
  · rw [State.resultThenFlag_reg_vf, flagByte_carryOut]
  · rw [State.resultThenFlag_reg_vf, flagByte_noBorrow]
  · rw [State.resultThenFlag_reg_vf, flagByte_noBorrow]
  · rw [State.resultThenFlag_reg_vf, flagByte_shiftedOutLow_toNat]
  · rw [State.resultThenFlag_reg_vf, flagByte_shiftedOutHigh_toNat]

/-- Settles O47: the result is masked, so it shares no bit with the complement of the mask. -/
theorem randomByteIsMasked : Obligations.RandomByteIsMasked := by
  intro x nn s
  obtain ⟨t, ht, hx, hframe⟩ := exec_result (i := .rndVxNn x nn) (s := s) rfl
  have hmask : s.rnd &&& nn &&& ~~~nn = 0 := by
    rw [BitVec.and_assoc, BitVec.and_not_self]
    exact BitVec.and_zero
  exact ⟨t, ht, hx, hx ▸ hmask, hframe⟩

end Sys2Proof.Machine

/-! SUPPORT. The rules of the index register and the memory instructions (44_index_memory.md): the index, the range flag and the decimal
digits as numbers, and what setting `I`, storing and loading leave unchanged; and the statements that follow from them. -/

namespace Sys2Proof.Machine

/-! ## Indices, the range flag and digits as numbers (44_index_memory.md R141 to R143) -/

section

variable (w : Word) (b : Byte)

theorem add_zextByte_toNat : (w + zextByte b).toNat = (w.toNat + b.toNat) % 65536 := by
  rw [BitVec.toNat_add, zextByte_toNat]

/-- Five times a byte fits in 16 bits. -/
theorem zextByte_mul_five_toNat : (zextByte b * 5#16).toNat = b.toNat * 5 := by
  rw [BitVec.toNat_mul, zextByte_toNat, BitVec.toNat_ofNat]
  omega

theorem flagByte_beyondAddressRange :
    flagByte (beyondAddressRange w b) = if w.toNat + b.toNat > 0xFFF then 0x01#8 else 0x00#8 := by
  simp only [flagByte, beyondAddressRange, decide_eq_true_eq]

/-- Each decimal digit fits in its byte. -/
theorem map_toNat_decimalDigits :
    (decimalDigits b).map BitVec.toNat = [b.toNat / 100, b.toNat / 10 % 10, b.toNat % 10] := by
  simp only [decimalDigits, List.map_cons, List.map_nil, BitVec.toNat_ofNat, List.cons.injEq, and_true]
  omega

end

/-- Digit `k` of the three, stored from `a` on, reads back at `a + k`. -/
theorem State.memRead_storeBytes_decimalDigits (s : State) (a : Nat) (b : Byte) (k : Nat) (hk : k < 3) :
    ((s.storeBytes a (decimalDigits b)).memRead (a + k)).toNat = [b.toNat / 100, b.toNat / 10 % 10, b.toNat % 10][k] := by
  have hlen : (decimalDigits b).length = 3 := rfl
  rw [State.memRead_storeBytes_at s a (decimalDigits b) k (hlen ▸ hk) (hlen ▸ by decide)]
  exact (List.getElem_map BitVec.toNat).symm.trans (List.getElem_of_eq (map_toNat_decimalDigits b) (by simpa [hlen] using hk))

/-! ## The frame of each operation that these instructions are made of -/

section

variable {s t : State}

/-- Setting `I` and going on changes `I`, `pc` and the status alone. -/
theorem State.advanced_setI_frame {w : Word} (ht : t = (s.setI w).advanced) :
    Advances s t ∧ KeepsRegs s t ∧ KeepsMemory s t ∧ KeepsStack s t ∧ KeepsTimers s t ∧ KeepsDisplay s t ∧ KeepsPorts s t := by
  subst ht
  exact ⟨State.advances_advanced rfl, fun _ => rfl, fun _ => rfl, ⟨rfl, rfl⟩, ⟨rfl, rfl⟩, ⟨fun _ _ => rfl, rfl⟩,
    rfl, rfl, rfl, rfl, rfl, rfl⟩

/-- Storing bytes and going on changes the memory they are stored at, `pc` and the status alone. -/
theorem State.advanced_storeBytes_frame {a n : Nat} {bs : List Byte} (ht : t = (s.storeBytes a bs).advanced)
    (hn : bs.length = n) :
    KeepsMemoryBut a n s t ∧ Advances s t ∧ KeepsRegs s t ∧ t.i = s.i ∧ KeepsStack s t ∧ KeepsTimers s t ∧
      KeepsDisplay s t ∧ KeepsPorts s t := by
  subst ht hn
  exact ⟨State.memRead_storeBytes_other s a bs, State.advances_advanced rfl, fun _ => rfl, rfl, ⟨rfl, rfl⟩, ⟨rfl, rfl⟩,
    ⟨fun _ _ => rfl, rfl⟩, rfl, rfl, rfl, rfl, rfl, rfl⟩

end

/-- Loading the lowest `n` registers writes none of the others and nothing else. -/
theorem State.onlyPcAndRegs_loadRegs {w : Reg → Prop} (s : State) (a : Nat) {n : Nat} (hw : ∀ r : Reg, r.toNat < n → w r) :
    OnlyPcAndRegs w s (s.loadRegs a n) :=
  ⟨fun r hr => (s.reg_loadRegs a n r).trans (if_neg (mt (hw r) hr)), by
    simp [KeepsMemory, KeepsStack, KeepsTimers, KeepsDisplay, KeepsPorts]⟩

/-! ## The statements -/

/-- Settles O51: three bytes are too few to reach an address twice, so each digit reads back where it was stored. -/
theorem storeDecimalDigits : Obligations.StoreDecimalDigits := by
  intro x s
  have hread := s.memRead_storeBytes_decimalDigits s.i.toNat (s.reg x)
  exact ⟨_, rfl, hread 0 (by decide), hread 1 (by decide), hread 2 (by decide), State.advanced_storeBytes_frame rfl rfl⟩

/-- Settles O52: at most sixteen bytes are too few to reach an address twice, so each register reads back where it was stored. -/
theorem storeRegisters : Obligations.StoreRegisters :=
  fun x s => ⟨_, rfl, fun _ hr => s.memRead_storeBytes_regsBelow s.i.toNat (Nat.lt_succ_of_le hr) x.isLt,
    State.advanced_storeBytes_frame rfl (s.length_regsBelow _)⟩

/-- Settles O53: the loaded registers are those up to `V[X]`, each with the byte at its own offset from `I`. -/
theorem loadRegisters : Obligations.LoadRegisters :=
  fun _ s => ⟨_, rfl,
    fun r hr => (State.advanced_reg _ r).trans ((s.reg_loadRegs _ _ r).trans (if_pos (Nat.lt_succ_of_le hr))),
    State.advances_advanced (s.loadRegs_pc _ _), (s.onlyPcAndRegs_loadRegs _ fun _ => Nat.le_of_lt_succ).advanced⟩

/-- Settles O48: the address is widened and nothing else is written. -/
theorem loadIndex : Obligations.LoadIndex :=
  fun nnn _ => ⟨_, rfl, zextNnn_toNat nnn, State.advanced_setI_frame rfl⟩

/-- Settles O49: the flag is the one register written, and the rest of the frame is that of setting `I`. -/
theorem addIndexSetsRangeFlag : Obligations.AddIndexSetsRangeFlag := by
  intro x s
  obtain ⟨hadv, -, hrest⟩ := State.advanced_setI_frame (s := s) (w := s.i + zextByte (s.reg x)) rfl
  refine ⟨_, rfl, add_zextByte_toNat s.i (s.reg x), ?_, hadv, fun r hr => ?_, hrest⟩
  · rw [State.advanced_reg, State.reg_setFlag, if_pos rfl, flagByte_beyondAddressRange]
  · rw [State.advanced_reg, State.reg_setFlag, if_neg hr, State.setI_reg]

/-- Settles O50: up to 0xF the instruction completes with `I` the digit's address, above it aborts. -/
theorem loadFontAddressOrInvalidIndex : Obligations.LoadFontAddressOrInvalidIndex :=
  fun _ _ => ⟨fun h => ⟨_, exec_of_completes (if_neg (Nat.not_lt_of_le h)), zextByte_mul_five_toNat _,
      State.advanced_setI_frame rfl⟩,
    fun h => exec_of_abort (if_pos h)⟩

end Sys2Proof.Machine

/-! SUPPORT. The rules of the display instructions (45_display.md): which pixels the sprite of an instruction flips, when a draw collides,
what the two instructions leave unchanged; and the statements that follow from them. -/

namespace Sys2Proof.Machine

/-! ## The sprite of an instruction (45_display.md R153, R154) -/

section

variable (x y : Reg) (n : BitVec 4) (s : State) (px : Fin 64) (py : Fin 32)

/-- The sprite DXYN reads at `I` has a 1 bit on the pixel when it is drawn at `(V[X], V[Y])`. -/
def spriteHasDot : Bool := spriteCovers (s.reg x) (s.reg y) (s.memReads s.i.toNat n.toNat) px py

/-- A sprite has at most fifteen rows, too few to reach a line of the frame buffer twice. -/
theorem length_memReads_sprite_le : (s.memReads s.i.toNat n.toNat).length ≤ 32 := by
  rw [State.length_memReads]
  omega

/-- The byte of sprite row `r` is the one at `I + r`, and its bit `7 - c` is the dot of column `c`. -/
theorem spriteHasDot_iff : spriteHasDot x y n s px py = true ↔ SpriteLandsOn s (s.reg x) (s.reg y) n.toNat px py := by
  rw [spriteHasDot, spriteCovers_iff _ _ _ (length_memReads_sprite_le n s), State.length_memReads, SpriteLandsOn]
  refine exists₂_congr fun r c => and_congr_right fun hr => ?_
  rw [State.getD_memReads s _ _ _ hr]
  exact and_congr_right fun _ => and_congr_right fun _ => and_congr Fin.ext_iff Fin.ext_iff

/-! ## The state after a draw (45_display.md R151, R152) -/

/-- The state after DXYN. -/
def State.afterDraw : State := ((s.shown (drawnBy x y n s).gfx).setFlag (drawnBy x y n s).hit).advanced

theorem exec_drwVxVyN : exec (.drwVxVyN x y n) s = .next (s.afterDraw x y n) := rfl

theorem State.afterDraw_pixel : (s.afterDraw x y n).pixel px py = (s.pixel px py ^^ spriteHasDot x y n s px py) :=
  drawSprite_pixel _ _ _ _ (length_memReads_sprite_le n s) _ _

theorem State.afterDraw_reg_vf : (s.afterDraw x y n).reg 0xF#4 = flagByte (drawnBy x y n s).hit :=
  (State.reg_setFlag _ _ _).trans (if_pos rfl)

theorem State.afterDraw_reg {r : Reg} (hr : r ≠ 0xF#4) : (s.afterDraw x y n).reg r = s.reg r :=
  (State.reg_setFlag _ _ _).trans (if_neg hr)

/-- The collision detector reports exactly the pixels that a draw turns off. -/
theorem drawnBy_hit_iff :
    (drawnBy x y n s).hit = true ↔ ∃ px py, s.pixel px py = true ∧ (s.afterDraw x y n).pixel px py = false := by
  rw [drawnBy, drawSprite_hit _ _ _ _ (length_memReads_sprite_le n s)]
  refine exists₂_congr fun px py => ?_
  change spriteHasDot x y n s px py = true ∧ s.pixel px py = true ↔ _
  rw [State.afterDraw_pixel, and_comm]
  exact and_congr_right fun hp => by rw [hp, Bool.true_xor, Bool.not_eq_false']

theorem flagByte_eq_one_iff (f : Bool) : flagByte f = 0x01#8 ↔ f = true := by
  cases f <;> decide

/-- VF says whether the draw turned a pixel off. -/
theorem State.afterDraw_reg_vf_eq_one_iff :
    (s.afterDraw x y n).reg 0xF#4 = 0x01#8 ↔ ∃ px py, s.pixel px py = true ∧ (s.afterDraw x y n).pixel px py = false := by
  rw [State.afterDraw_reg_vf, flagByte_eq_one_iff, drawnBy_hit_iff]

/-- A draw that turns no pixel off clears VF. -/
theorem State.afterDraw_reg_vf_eq_zero (h : ∀ px py, s.pixel px py = true → (s.afterDraw x y n).pixel px py = true) :
    (s.afterDraw x y n).reg 0xF#4 = 0x00#8 := by
  have hhit : (drawnBy x y n s).hit = false := by
    rw [← Bool.not_eq_true, drawnBy_hit_iff]
    rintro ⟨px, py, hon, hoff⟩
    exact Bool.false_ne_true (hoff.symm.trans (h px py hon))
  rw [State.afterDraw_reg_vf, hhit]
  rfl

/-! ## Drawing again (95_test_vectors.md S5) -/

/-- A draw leaves its own sprite and, if neither coordinate is read from VF, the place it is drawn at. -/
theorem spriteHasDot_afterDraw (hx : x ≠ 0xF#4) (hy : y ≠ 0xF#4) :
    spriteHasDot x y n (s.afterDraw x y n) px py = spriteHasDot x y n s px py := by
  rw [spriteHasDot, State.afterDraw_reg x y n s hx, State.afterDraw_reg x y n s hy]
  rfl

/-- The second draw flips the same pixels back. -/
theorem State.afterDraw_afterDraw_pixel (hx : x ≠ 0xF#4) (hy : y ≠ 0xF#4) :
    ((s.afterDraw x y n).afterDraw x y n).pixel px py = s.pixel px py := by
  rw [State.afterDraw_pixel, spriteHasDot_afterDraw x y n s px py hx hy, State.afterDraw_pixel, Bool.xor_assoc, Bool.xor_self,
    Bool.xor_false]

end

/-! ## The statements -/

/-- Settles O55: each pixel is flipped where the sprite has a dot, and VF compares the frame buffer before with the one after. -/
theorem drawFlipsTheSpritesPixels : Obligations.DrawFlipsTheSpritesPixels := by
  refine fun x y n s => ⟨_, exec_drwVxVyN x y n s, fun px py => ⟨fun h => ?_, fun h => ?_⟩,
    (s.afterDraw_reg_vf_eq_one_iff x y n).2, s.afterDraw_reg_vf_eq_zero x y n, rfl, State.advances_advanced rfl,
    fun r => s.afterDraw_reg x y n, fun _ => rfl, rfl, ⟨rfl, rfl⟩, ⟨rfl, rfl⟩, rfl, rfl, rfl, rfl, rfl, rfl⟩
  · rw [State.afterDraw_pixel, (spriteHasDot_iff x y n s px py).2 h, Bool.xor_true]
  · rw [State.afterDraw_pixel, Bool.eq_false_iff.2 (mt (spriteHasDot_iff x y n s px py).1 h), Bool.xor_false]

/-- Settles O56: the pixels that the second draw turns off are those that the first turned on, since it restores the frame buffer. -/
theorem drawingTwiceRestoresTheScreen : Obligations.DrawingTwiceRestoresTheScreen := by
  intro x y n s hx hy
  have hrestored := fun px py => s.afterDraw_afterDraw_pixel x y n px py hx hy
  refine ⟨_, _, exec_drwVxVyN x y n s, exec_drwVxVyN x y n _, hrestored, ?_⟩
  rw [State.afterDraw_reg_vf_eq_one_iff]
  refine exists₂_congr fun px py => ?_
  rw [hrestored, and_comm]

/-- Settles O54: the frame buffer is replaced by the blank one and no register is written. -/
theorem clearScreen : Obligations.ClearScreen :=
  fun _ => ⟨_, rfl, Gfx.pixel_blank, rfl, State.advances_advanced rfl, fun _ => rfl, fun _ => rfl, rfl, ⟨rfl, rfl⟩, ⟨rfl, rfl⟩,
    rfl, rfl, rfl, rfl, rfl, rfl⟩

end Sys2Proof.Machine

/-! SUPPORT. The rules of the timer and key instructions (46_timer_key.md): the two outcomes of FX0A, the step that waits, the step that
completes and its tick; and the statements that follow from them. -/

namespace Sys2Proof.Machine

section

variable {i : Instr} {s t : State} {x : Reg}

/-! ## The wait (46_timer_key.md R161) -/

theorem abortOf_ldVxK_eq_some (h : s.key = 0) : abortOf (.ldVxK x) s = some .waitingForKey :=
  if_pos ((lowestKey_none _).2 h)

theorem abortOf_ldVxK_eq_none (h : s.key ≠ 0) : abortOf (.ldVxK x) s = none :=
  if_neg (mt (lowestKey_none _).1 h)

theorem exec_ldVxK_of_no_key (h : s.key = 0) : exec (.ldVxK x) s = .next s.waiting :=
  exec_of_abort (abortOf_ldVxK_eq_some h)

theorem exec_ldVxK_of_lowestKey {k : Nat} (h : lowestKey s.key = some k) :
    exec (.ldVxK x) s = .next (s.setReg x (BitVec.ofNat 8 k)).advanced := by
  simp only [exec, execLdVxK, h]

/-- The number of a key fits in a byte. -/
theorem ofNat_lowestKey_toNat {key : Word} {k : Nat} (h : lowestKey key = some k) : (BitVec.ofNat 8 k).toNat = k := by
  obtain ⟨hk, -, -⟩ := (lowestKey_some key k).1 h
  rw [BitVec.toNat_ofNat, Nat.mod_eq_of_lt (by omega)]

/-- FX0A is the only instruction that waits. -/
theorem eq_ldVxK_of_abortOf (h : abortOf i s = some .waitingForKey) : ∃ x, i = .ldVxK x := by
  cases i with
  | ldVxK x => exact ⟨x, rfl⟩
  | ret | call _ | ldFVx _ =>
    obtain ⟨-, he⟩ := Option.ite_none_right_eq_some.1 h
    cases he
  | _ => cases h

/-- A step that waits has fetched FX0A and leaves the latched state but for the status. -/
theorem step_waits (h : step s = .next t) (ht : t.status = .waitingForKey) :
    t = s.begun.waiting ∧ ∃ x, decode s.fetchWord = .ok (.ldVxK x) := by
  obtain ⟨r, -, rfl⟩ | ⟨i, u, hd, hu, rfl⟩ := step_cases s t h
  · cases ht
  · rw [State.ended_status] at ht
    obtain ⟨e, ha, rfl⟩ | ⟨-, rfl⟩ := exec_cases hu
    · obtain rfl : e = .waitingForKey := ht
      obtain ⟨x, rfl⟩ := eq_ldVxK_of_abortOf ha
      exact ⟨State.ended_of_not_running _ (abortOf_ne_running ha), x, hd⟩
    · cases ht

/-! ## The tick (46_timer_key.md R164, R165) -/

/-- A step whose instruction completes leaves the latched state with the instruction's writes, ticked. -/
theorem step_of_completes (hd : decode s.fetchWord = .ok i) (ha : abortOf i s.begun = none) :
    step s = .next ((writtenBy i s.begun).completed (targetOf i s.begun)).ticked :=
  (step_of_exec s _ i hd (exec_of_completes ha)).trans (congrArg _ (State.ended_of_running _ rfl))

/-- No instruction writes the latched inputs or `sound_triggered`, whether it completes or aborts. -/
theorem exec_keepsPorts (h : exec i s = .next t) : KeepsPorts s t := by
  obtain ⟨e, -, rfl⟩ | ⟨-, rfl⟩ := exec_cases h
  · exact ⟨rfl, rfl, rfl, rfl, rfl, rfl⟩
  · exact writtenBy_keepsPorts

/-- The end of a step raises `sound_triggered` exactly if it ticks and finds ST at 1. -/
theorem State.ended_soundTriggered (h : s.soundTriggered = false) :
    s.ended.soundTriggered = true ↔ s.status = .running ∧ s.st = 1 := by
  by_cases hr : s.status = .running
  · simp [State.ended_of_running s hr, hr]
  · simp [State.ended_of_not_running s hr, hr, h]

/-- The tick takes a timer from 1 to 0. -/
theorem State.ended_st_eq_zero (hr : s.status = .running) (hst : s.st = 1) : s.ended.st = 0 := by
  rw [State.ended_of_running s hr, State.ticked_st, hst]
  rfl

/-- Setting the timers and going on changes the timers, `pc` and the status alone. -/
theorem State.advanced_timers_frame {d e : Byte} (ht : t = ((s.setDt d).setSt e).advanced) :
    Advances s t ∧ KeepsRegs s t ∧ KeepsMemory s t ∧ t.i = s.i ∧ KeepsStack s t ∧ KeepsDisplay s t ∧ KeepsPorts s t := by
  subst ht
  exact ⟨State.advances_advanced rfl, fun _ => rfl, fun _ => rfl, rfl, ⟨rfl, rfl⟩, ⟨fun _ _ => rfl, rfl⟩,
    rfl, rfl, rfl, rfl, rfl, rfl⟩

end

/-! ## The statements -/

/-- Settles O15: the wait leaves memory and `pc`, so the next step fetches FX0A again and tests the keys of its own input. -/
theorem waitEndsExactlyWithAPressedKey : Obligations.WaitEndsExactlyWithAPressedKey := by
  intro s t h ht
  obtain ⟨hts, x, hd⟩ := step_waits h ht
  have hd' : decode t.fetchWord = .ok (.ldVxK x) := hts ▸ hd
  by_cases hkey : t.nextInput.pressedKeys = 0
  · have hu : step t = .next t.begun.waiting.ended := step_of_exec t _ _ hd' (exec_ldVxK_of_no_key hkey)
    exact ⟨_, hu, fun _ => ⟨State.ended_status _, State.ended_pc _⟩, fun hne => absurd hkey hne⟩
  · exact ⟨_, step_of_completes hd' (abortOf_ldVxK_eq_none hkey), fun h0 => absurd h0 hkey, fun _ => ⟨rfl, rfl⟩⟩

/-- Settles O17: `sound_triggered` is 0 until the end of the step, which alone can raise it. -/
theorem soundTriggersExactlyWhenTimerReachesZero : Obligations.SoundTriggersExactlyWhenTimerReachesZero := by
  intro s t h
  obtain ⟨r, hd, rfl⟩ | ⟨i, u, hd, hu, rfl⟩ := step_cases s t h
  · simp [hd]
  · obtain ⟨-, -, hquiet, -⟩ := exec_keepsPorts hu
    have hsound := State.ended_soundTriggered hquiet
    refine ⟨hsound.trans ?_, fun ht => ?_⟩
    · rw [State.ended_status]
      refine and_congr_right fun _ => ⟨fun hst => ⟨i, u, hd, hu, hst⟩, ?_⟩
      rintro ⟨j, u', hj, hu', hst⟩
      obtain rfl : i = j := Except.ok.inj (hd.symm.trans hj)
      obtain rfl : u = u' := Host.Outcome.next.inj (hu.symm.trans hu')
      exact hst
    · obtain ⟨hr, hst⟩ := hsound.1 ht
      exact State.ended_st_eq_zero hr hst

/-- Settles O19: each of the three completes, so that its step is its writes and then the tick. -/
theorem timerInstructionsAndTheTickOfTheirStep : Obligations.TimerInstructionsAndTheTickOfTheirStep := by
  refine fun s x => ⟨fun hd => ⟨_, step_of_completes hd rfl, rfl, ?_, countDown_toNat _⟩,
    fun hd => ⟨_, step_of_completes hd rfl, rfl, countDown_toNat _⟩,
    fun hd => ⟨_, step_of_completes hd rfl, rfl, countDown_toNat _, beq_iff_eq⟩⟩
  exact (State.reg_setReg _ _ _ _).trans (if_pos rfl)

/-- Settles O57: DT is the one value written, to one register. -/
theorem loadFromDelayTimer : Obligations.LoadFromDelayTimer :=
  fun _ _ => exec_result rfl

/-- Settles O58: with a key pressed there is a lowest one, and its number is the one register written; with none the instruction aborts. -/
theorem loadKeyWaitsOrTakesTheLowest : Obligations.LoadKeyWaitsOrTakesTheLowest := by
  refine fun x s => ⟨fun hkey => ?_, exec_ldVxK_of_no_key⟩
  obtain ⟨k, hk⟩ := Option.ne_none_iff_exists'.1 (mt (lowestKey_none _).1 hkey)
  obtain ⟨t, ht, hx, hframe⟩ := exec_result (exec_ldVxK_of_lowestKey (x := x) hk)
  refine ⟨t, ht, ?_, hframe⟩
  rw [hx, ofNat_lowestKey_toNat hk]
  exact (lowestKey_some _ k).1 hk

/-- Settles O59: each instruction writes its timer and leaves the other at its value. -/
theorem setTimers : Obligations.SetTimers :=
  fun x s => ⟨⟨_, rfl, rfl, rfl, State.advanced_timers_frame (d := s.reg x) (e := s.st) rfl⟩,
    ⟨_, rfl, rfl, rfl, State.advanced_timers_frame (d := s.dt) (e := s.reg x) rfl⟩⟩

end Sys2Proof.Machine

/-! SUPPORT. The rules of errors (60_exceptions.md): what decides whether an instruction raises is unchanged after it has raised, so the
next step raises the same error, and so does every step of a run; and the statement that follows from them. -/

namespace Sys2Proof.Machine

section

variable {i : Instr} {s t u : State} {e : Status}

/-! ## The block's state apart from the inputs -/

theorem SameButInputs.refl (s : State) : SameButInputs s s :=
  ⟨rfl, rfl, rfl, rfl, rfl, rfl, rfl, rfl, rfl⟩

theorem SameButInputs.trans (hst : SameButInputs s t) (htu : SameButInputs t u) : SameButInputs s u :=
  ⟨htu.mem.trans hst.mem, htu.v.trans hst.v, htu.i.trans hst.i, htu.pc.trans hst.pc, htu.stack.trans hst.stack, htu.sp.trans hst.sp,
    htu.dt.trans hst.dt, htu.st.trans hst.st, htu.gfx.trans hst.gfx⟩

theorem State.sameButInputs_begun (s : State) : SameButInputs s s.begun :=
  ⟨rfl, rfl, rfl, rfl, rfl, rfl, rfl, rfl, rfl⟩

theorem State.sameButInputs_raised (s : State) (e : Status) : SameButInputs s (s.raised e) :=
  ⟨rfl, rfl, rfl, rfl, rfl, rfl, rfl, rfl, rfl⟩

theorem SameButInputs.reg_eq (h : SameButInputs s t) (r : Reg) : t.reg r = s.reg r := by rw [State.reg, h.v, State.reg]

/-- Only FX0A looks at an input to decide whether it completes: the stack errors look at `sp`, the font index error at a register. -/
theorem SameButInputs.abortOf_eq (h : SameButInputs s t) (hi : ∀ x, i ≠ .ldVxK x) : abortOf i t = abortOf i s := by
  cases i with
  | ret | call _ => simp only [abortOf, h.sp]
  | ldFVx _ => rw [abortOf, abortOf, h.reg_eq]
  | ldVxK x => exact absurd rfl (hi x)
  | _ => rfl

/-! ## The error repeats (60_exceptions.md R179) -/

/-- FX0A waits and raises no error. -/
theorem ne_ldVxK_of_isError (ha : abortOf i s = some e) (he : e.isError = true) (x : Reg) : i ≠ .ldVxK x := by
  rintro rfl
  obtain ⟨-, ⟨⟩⟩ := Option.ite_none_right_eq_some.1 ha
  cases he

theorem step_of_abort (hd : decode s.fetchWord = .ok i) (ha : abortOf i s.begun = some e) : step s = .next (s.begun.raised e) := by
  have hr : (s.begun.raised e).status ≠ .running := abortOf_ne_running ha
  rw [step_of_exec s _ i hd (exec_of_abort ha), State.ended_of_not_running _ hr]

/-- The step after one that raises raises the same error: it fetches the same word, which is still illegal or decodes to an instruction that
finds its error again, whatever the new inputs. -/
theorem step_after_error (h : step s = .next t) (ht : t.status.isError = true) :
    step t = .next (t.begun.raised t.status) := by
  obtain ⟨r, hd, rfl⟩ | ⟨i, u, hd, hu, rfl⟩ := step_cases s t h
  · exact step_of_illegal _ r hd
  · rw [State.ended_status] at ht
    obtain ⟨e, ha, rfl⟩ | ⟨-, rfl⟩ := exec_cases hu
    · rw [State.ended_of_not_running _ (abortOf_ne_running ha)]
      have hsame : SameButInputs s.begun (s.begun.raised e).begun :=
        (State.sameButInputs_raised _ e).trans (State.sameButInputs_begun _)
      have ha' : abortOf i (s.begun.raised e).begun = some e :=
        (hsame.abortOf_eq (ne_ldVxK_of_isError ha ht)).trans ha
      exact step_of_abort hd ha'
    · cases ht

theorem run_succ_of_step {M : Host.Core} {s t : M.State} (h : M.step s = .next t) (n : Nat) : M.run (n + 1) s = M.run n t := by
  rw [Host.Core.run, h]

end

/-! ## The statement -/

/-- Settles O14, by induction on the number of steps: the step after an erroring step errs in the same way, so the run from it is again a
run that begins after an erroring step. -/
theorem errorRepeatsForEver : Obligations.ErrorRepeatsForEver := by
  intro s t n
  induction n generalizing s t with
  | zero => exact fun _ _ => ⟨t, rfl, rfl, SameButInputs.refl t⟩
  | succ n ih =>
    intro h ht
    have hstep := step_after_error h ht
    obtain ⟨u, hrun, hstatus, hsame⟩ := ih t _ hstep ht
    have hfirst : SameButInputs t (t.begun.raised t.status) :=
      t.sameButInputs_begun.trans (State.sameButInputs_raised _ _)
    exact ⟨u, (run_succ_of_step (M := core) hstep n).trans hrun, hstatus, hfirst.trans hsame⟩

end Sys2Proof.Machine

/-! SUPPORT. The reset operation (70_reset_and_hazards.md R190) and the decoder's sample words (95_test_vectors.md 2.1): what the reset
leaves of the state before it, a word decoded by encoding; and the statements that follow from them. -/

namespace Sys2Proof.Machine

/-- The fields the reset operation keeps are none of the block's state, so the block is as it is right after reset. -/
theorem State.sameButInputs_hostReset (s : State) : SameButInputs State.reset s.hostReset :=
  ⟨rfl, rfl, rfl, rfl, rfl, rfl, rfl, rfl, rfl⟩

/-- A word decodes to the instruction that it encodes. -/
theorem decode_of_encode_eq {i : Instr} {w : Word} (h : encode i = w) : decode w = .ok i :=
  h ▸ decode_encode i

/-! ## The statements -/

/-- Settles O29: the block is that of the reset state, and the inputs and the step index are those of the state before. -/
theorem hostResetFromAnyState : Obligations.HostResetFromAnyState :=
  fun s => ⟨s.sameButInputs_hostReset, rfl, rfl, rfl, rfl, rfl⟩

/-- Settles O1: each of the words is the encoding of the instruction given for it. -/
theorem sampleWordsDecode : Obligations.SampleWordsDecode := by
  refine ⟨?_, ?_, ?_, ?_, ?_, ?_, ?_, ?_, ?_, ?_, ?_⟩ <;> exact decode_of_encode_eq (by decide)

end Sys2Proof.Machine
